-- ==== Sys2Proof/Word.lean ====
section
/-! DEFINITION. The widths of the machine's values (spec 00_scope.md R6, R8; 30_encoding.md R71). -/

namespace Sys2Proof

/-- An 8-bit value: a general register, a timer, a memory cell, the immediate NN. -/
abbrev Byte := BitVec 8

/-- A 16-bit value: an instruction word, PC, I. -/
abbrev Word := BitVec 16

/-- A 12-bit value: the field NNN, an entry of the call stack. -/
abbrev Addr := BitVec 12

/-- A 4-bit register index, the fields X and Y (R8, R74). -/
abbrev RegIdx := BitVec 4

/-- The 4-bit field N. -/
abbrev Nibble := BitVec 4

/-- A 4-bit key index (44_keys_timers.md R190). -/
abbrev KeyIdx := BitVec 4

/-- The register index of the flag register VF (10_state.md R21). -/
abbrev vF : RegIdx := 0xF#4

end Sys2Proof
end

