-- ==== Sys2Proof/Syntax.lean ====
section
/-! DEFINITION. The instructions: one constructor per row of opcode_table.json (30_encoding.md R84, R85).
The pattern of each row stands beside its constructor; x and y are register indices, n the sprite row
count, nn the immediate byte, nnn the 12-bit address. -/

namespace Sys2Proof

/-- The 35 instructions. -/
inductive Instr where
  /-- 00E0 CLS -/
  | cls
  /-- 00EE RET -/
  | ret
  /-- 0NNN SYS -/
  | sys (nnn : Addr)
  /-- 1NNN JP -/
  | jp (nnn : Addr)
  /-- 2NNN CALL -/
  | call (nnn : Addr)
  /-- 3XNN SE.imm -/
  | seImm (x : RegIdx) (nn : Byte)
  /-- 4XNN SNE.imm -/
  | sneImm (x : RegIdx) (nn : Byte)
  /-- 5XY0 SE.reg -/
  | seReg (x y : RegIdx)
  /-- 6XNN LD.imm -/
  | ldImm (x : RegIdx) (nn : Byte)
  /-- 7XNN ADD.imm -/
  | addImm (x : RegIdx) (nn : Byte)
  /-- 8XY0 LD.reg -/
  | ldReg (x y : RegIdx)
  /-- 8XY1 OR -/
  | orReg (x y : RegIdx)
  /-- 8XY2 AND -/
  | andReg (x y : RegIdx)
  /-- 8XY3 XOR -/
  | xorReg (x y : RegIdx)
  /-- 8XY4 ADD.reg -/
  | addReg (x y : RegIdx)
  /-- 8XY5 SUB -/
  | sub (x y : RegIdx)
  /-- 8XY6 SHR; Y is decoded and ignored (R74) -/
  | shr (x y : RegIdx)
  /-- 8XY7 SUBN -/
  | subn (x y : RegIdx)
  /-- 8XYE SHL; Y is decoded and ignored (R74) -/
  | shl (x y : RegIdx)
  /-- 9XY0 SNE.reg -/
  | sneReg (x y : RegIdx)
  /-- ANNN LD.I -/
  | ldI (nnn : Addr)
  /-- BNNN JP.V0 -/
  | jpV0 (nnn : Addr)
  /-- CXNN RND -/
  | rnd (x : RegIdx) (nn : Byte)
  /-- DXYN DRW -/
  | drw (x y : RegIdx) (n : Nibble)
  /-- EX9E SKP -/
  | skp (x : RegIdx)
  /-- EXA1 SKNP -/
  | sknp (x : RegIdx)
  /-- FX07 LD.Vx.DT -/
  | ldVxDt (x : RegIdx)
  /-- FX0A LD.Vx.K -/
  | ldVxK (x : RegIdx)
  /-- FX15 LD.DT -/
  | ldDt (x : RegIdx)
  /-- FX18 LD.ST -/
  | ldSt (x : RegIdx)
  /-- FX1E ADD.I -/
  | addI (x : RegIdx)
  /-- FX29 LD.F -/
  | ldF (x : RegIdx)
  /-- FX33 LD.B -/
  | ldB (x : RegIdx)
  /-- FX55 ST.I -/
  | stI (x : RegIdx)
  /-- FX65 LD.Vx.I -/
  | ldVxI (x : RegIdx)
  deriving DecidableEq, Repr

end Sys2Proof
end

