-- ==== Sys2Proof/Decode.lean ====
section
/-! DEFINITION. The decoder of 30_encoding.md R71 and R75, total on every word, and the encoder, written from
the formats of R72 and the opcode table. -/

namespace Sys2Proof

/-- The field record of 30_encoding.md R71. -/
structure Fields where
  op : Nibble
  x : RegIdx
  y : RegIdx
  n : Nibble
  nn : Byte
  nnn : Addr
  deriving DecidableEq, Repr

/-- The fields of a word, at the bits R71 gives. -/
def fields (w : Word) : Fields :=
  { op := w.extractLsb' 12 4
    x := w.extractLsb' 8 4
    y := w.extractLsb' 4 4
    n := w.extractLsb' 0 4
    nn := w.extractLsb' 0 8
    nnn := w.extractLsb' 0 12 }

/-- Group 0x0: 0x00E0 is CLS, 0x00EE is RET, 0x0000 is Unknown, every other word is SYS (R76). -/
def decode0 (f : Fields) : Option Instr :=
  if f.nnn = 0x0E0#12 then some .cls
  else if f.nnn = 0x0EE#12 then some .ret
  else if f.nnn = 0x000#12 then none
  else some (.sys f.nnn)

/-- Group 0x8, by the trailing nibble (R77). -/
def decode8 (f : Fields) : Option Instr :=
  match f.n.toNat with
  | 0x0 => some (.ldReg f.x f.y)
  | 0x1 => some (.orReg f.x f.y)
  | 0x2 => some (.andReg f.x f.y)
  | 0x3 => some (.xorReg f.x f.y)
  | 0x4 => some (.addReg f.x f.y)
  | 0x5 => some (.sub f.x f.y)
  | 0x6 => some (.shr f.x f.y)
  | 0x7 => some (.subn f.x f.y)
  | 0xE => some (.shl f.x f.y)
  | _ => none

/-- Group 0xE, by the low byte (R78). -/
def decodeE (f : Fields) : Option Instr :=
  match f.nn.toNat with
  | 0x9E => some (.skp f.x)
  | 0xA1 => some (.sknp f.x)
  | _ => none

/-- Group 0xF, by the low byte (R79). -/
def decodeF (f : Fields) : Option Instr :=
  match f.nn.toNat with
  | 0x07 => some (.ldVxDt f.x)
  | 0x0A => some (.ldVxK f.x)
  | 0x15 => some (.ldDt f.x)
  | 0x18 => some (.ldSt f.x)
  | 0x1E => some (.addI f.x)
  | 0x29 => some (.ldF f.x)
  | 0x33 => some (.ldB f.x)
  | 0x55 => some (.stI f.x)
  | 0x65 => some (.ldVxI f.x)
  | _ => none

/-- Groups 0x5 and 0x9: the trailing nibble must be 0 (R75; 90_conflicts.md C4). -/
def decodeXY0 (f : Fields) (i : Instr) : Option Instr := if f.n = 0x0#4 then some i else none

/-- Classification of the fields by leading nibble, with no fall-through from one group to another (R75, R83). -/
def classify (f : Fields) : Option Instr :=
  match f.op.toNat with
  | 0x0 => decode0 f
  | 0x1 => some (.jp f.nnn)
  | 0x2 => some (.call f.nnn)
  | 0x3 => some (.seImm f.x f.nn)
  | 0x4 => some (.sneImm f.x f.nn)
  | 0x5 => decodeXY0 f (.seReg f.x f.y)
  | 0x6 => some (.ldImm f.x f.nn)
  | 0x7 => some (.addImm f.x f.nn)
  | 0x8 => decode8 f
  | 0x9 => decodeXY0 f (.sneReg f.x f.y)
  | 0xA => some (.ldI f.nnn)
  | 0xB => some (.jpV0 f.nnn)
  | 0xC => some (.rnd f.x f.nn)
  | 0xD => some (.drw f.x f.y f.n)
  | 0xE => decodeE f
  | 0xF => decodeF f
  | _ => none

/-- The instruction a word is, or none for an Unknown word (R75, R81). -/
def decode (w : Word) : Option Instr := classify (fields w)

/-- Why bytes are no instruction. -/
inductive DecodeReject where
  /-- The word is Unknown (R81): executing it raises Fault(UnknownOpcode). -/
  | unknownWord (w : Word)
  /-- Fewer than the two bytes every instruction has (R70). -/
  | truncated
  deriving DecidableEq, Repr

/-- Two bytes as an instruction word, the first one the more significant (20_memory.md R52). -/
def wordOfBytes (hi lo : Byte) : Word := hi ++ lo

/-- The decoder on bytes: it consumes exactly two (R70) and gives the rest back. -/
def decodeBytes : List Byte → Except DecodeReject (Instr × List Byte)
  | hi :: lo :: rest =>
    match decode (wordOfBytes hi lo) with
    | some i => .ok (i, rest)
    | none => .error (.unknownWord (wordOfBytes hi lo))
  | [_] => .error .truncated
  | [] => .error .truncated

/-- Format NNN (R72). -/
def fmtNNN (op : Nibble) (nnn : Addr) : Word := op ++ nnn

/-- Format XNN (R72). -/
def fmtXNN (op : Nibble) (x : RegIdx) (nn : Byte) : Word := (op ++ x : Byte) ++ nn

/-- Formats XYF and XYN (R72): a trailing nibble that selects a function, or that is the row count. -/
def fmtXYN (op : Nibble) (x y : RegIdx) (n : Nibble) : Word := (op ++ x : Byte) ++ (y ++ n : Byte)

/-- The word of an instruction, from the formats of R72 and the opcode table's rows. -/
def encode : Instr → Word
  | .cls => 0x00E0#16
  | .ret => 0x00EE#16
  | .sys nnn => fmtNNN 0x0 nnn
  | .jp nnn => fmtNNN 0x1 nnn
  | .call nnn => fmtNNN 0x2 nnn
  | .seImm x nn => fmtXNN 0x3 x nn
  | .sneImm x nn => fmtXNN 0x4 x nn
  | .seReg x y => fmtXYN 0x5 x y 0x0
  | .ldImm x nn => fmtXNN 0x6 x nn
  | .addImm x nn => fmtXNN 0x7 x nn
  | .ldReg x y => fmtXYN 0x8 x y 0x0
  | .orReg x y => fmtXYN 0x8 x y 0x1
  | .andReg x y => fmtXYN 0x8 x y 0x2
  | .xorReg x y => fmtXYN 0x8 x y 0x3
  | .addReg x y => fmtXYN 0x8 x y 0x4
  | .sub x y => fmtXYN 0x8 x y 0x5
  | .shr x y => fmtXYN 0x8 x y 0x6
  | .subn x y => fmtXYN 0x8 x y 0x7
  | .shl x y => fmtXYN 0x8 x y 0xE
  | .sneReg x y => fmtXYN 0x9 x y 0x0
  | .ldI nnn => fmtNNN 0xA nnn
  | .jpV0 nnn => fmtNNN 0xB nnn
  | .rnd x nn => fmtXNN 0xC x nn
  | .drw x y n => fmtXYN 0xD x y n
  | .skp x => fmtXNN 0xE x 0x9E
  | .sknp x => fmtXNN 0xE x 0xA1
  | .ldVxDt x => fmtXNN 0xF x 0x07
  | .ldVxK x => fmtXNN 0xF x 0x0A
  | .ldDt x => fmtXNN 0xF x 0x15
  | .ldSt x => fmtXNN 0xF x 0x18
  | .addI x => fmtXNN 0xF x 0x1E
  | .ldF x => fmtXNN 0xF x 0x29
  | .ldB x => fmtXNN 0xF x 0x33
  | .stI x => fmtXNN 0xF x 0x55
  | .ldVxI x => fmtXNN 0xF x 0x65

/-- The high byte of a word, which memory holds at the lower address (20_memory.md R52). -/
def highByte (w : Word) : Byte := w.extractLsb' 8 8

/-- The low byte of a word. -/
def lowByte (w : Word) : Byte := w.extractLsb' 0 8

/-- The instruction read from a table row's bits, laid out big-endian as memory holds them. -/
def decodeTableWord (nbits w : Nat) : Option Instr :=
  let word := BitVec.ofNat 16 (w % 2 ^ nbits)
  match decodeBytes [highByte word, lowByte word] with
  | .ok (i, _) => some i
  | .error _ => none

end Sys2Proof
end

