-- ==== Sys2Proof/Config.lean ====
section
/-! DEFINITION. The implementation parameters of 00_scope.md R7, with the defaults the rule gives, and the
free values: the random byte of CXNN (41_alu.md R134), the key FX0A reports when any may be taken
(44_keys_timers.md R196), and the build's own tick rate. -/

namespace Sys2Proof

/-- ROW_WRAP: whether DXYN wraps the row coordinate (43_display.md R172). -/
inductive RowWrap where
  | wrap
  | lineage
  deriving DecidableEq, Repr

/-- FX0A_TRIGGER: what ends the FX0A wait (44_keys_timers.md R194, R195). -/
inductive KeyTrigger where
  | edge
  | level
  deriving DecidableEq, Repr

/-- FX0A_KEY_CHOICE: which key FX0A reports when several qualify (44_keys_timers.md R196). -/
inductive KeyChoice where
  | lowest
  | any
  deriving DecidableEq, Repr

/-- The 80 bytes that reset installs at 0x000-0x04F (10_state.md R36). -/
abbrev FontRom := Vector Byte 80

/-- TIMER_RATE_HZ, a positive real (00_scope.md R7), as plain data: a rational rate written out, or the build's own
rate, which may be any real; log entry 14. -/
inductive TimerRate where
  | hz (q : Rat)
  | ofBuild
  deriving DecidableEq, Repr

/-- The build's own tick rate: a free value, any real number (00_scope.md R7; 60_exceptions.md R221); log entry 14. -/
opaque Config.buildRateHz : ℝ

/-- The rate is r Hz. -/
def TimerRate.isHz (t : TimerRate) (r : ℝ) : Prop :=
  match t with
  | .hz q => r = (q : ℝ)
  | .ofBuild => r = Config.buildRateHz

/-- The parameters a build of this hardware fixes (00_scope.md R7). They are held in State and no step
changes them (70_reset_and_hazards.md R251); log entry 1. -/
structure Params where
  /-- STACK_LIMIT; none is `unbounded`. -/
  stackLimit : Option Nat
  /-- DISPLAY_W, in pixels. -/
  displayW : Nat
  /-- DISPLAY_H, in pixels. -/
  displayH : Nat
  /-- ROW_WRAP. -/
  rowWrap : RowWrap
  /-- TIMER_RATE_HZ, which no rule reads (60_exceptions.md R221); log entry 14. -/
  timerRateHz : TimerRate
  /-- FONT_ROM. -/
  fontRom : FontRom
  /-- FX0A_TRIGGER. -/
  fx0aTrigger : KeyTrigger
  /-- FX0A_KEY_CHOICE. -/
  fx0aKeyChoice : KeyChoice
  deriving DecidableEq, Repr

/-- The values column of 00_scope.md R7: a stack limit of at least 1, a positive geometry, a positive rate. -/
abbrev Params.wf (p : Params) : Prop :=
  (match p.stackLimit with | none => True | some n => 1 ≤ n) ∧ 1 ≤ p.displayW ∧ 1 ≤ p.displayH ∧
    ∀ r, p.timerRateHz.isHz r → 0 < r

/-- The conventional glyphs of the digits 0 to 7 (10_state.md R36), five bytes a glyph, top row first.
PRESUMED: the spec marks these bytes as general knowledge; log entry 2. -/
def Config.glyphs0to7 : List Byte :=
  [0xF0, 0x90, 0x90, 0x90, 0xF0] ++ [0x20, 0x60, 0x20, 0x20, 0x70] ++ [0xF0, 0x10, 0xF0, 0x80, 0xF0] ++
  [0xF0, 0x10, 0xF0, 0x10, 0xF0] ++ [0x90, 0x90, 0xF0, 0x10, 0x10] ++ [0xF0, 0x80, 0xF0, 0x10, 0xF0] ++
  [0xF0, 0x80, 0xF0, 0x90, 0xF0] ++ [0xF0, 0x10, 0x20, 0x40, 0x40]

/-- The conventional glyphs of the digits 8 to F (10_state.md R36). PRESUMED; log entry 2. -/
def Config.glyphs8toF : List Byte :=
  [0xF0, 0x90, 0xF0, 0x90, 0xF0] ++ [0xF0, 0x90, 0xF0, 0x10, 0xF0] ++ [0xF0, 0x90, 0xF0, 0x90, 0x90] ++
  [0xE0, 0x90, 0xE0, 0x90, 0xE0] ++ [0xF0, 0x80, 0x80, 0x80, 0xF0] ++ [0xE0, 0x90, 0x90, 0x90, 0xE0] ++
  [0xF0, 0x80, 0xF0, 0x80, 0xF0] ++ [0xF0, 0x80, 0xF0, 0x80, 0x80]

/-- The default FONT_ROM (10_state.md R36). A claim must not rely on these bytes without taking them as a
premise, which the rule says too. PRESUMED; log entry 2. -/
def Config.defaultFont : FontRom := ⟨(glyphs0to7 ++ glyphs8toF).toArray, rfl⟩

/-- The defaults of 00_scope.md R7. -/
def Params.default : Params :=
  { stackLimit := none
    displayW := 64
    displayH := 32
    rowWrap := .wrap
    timerRateHz := .hz 60
    fontRom := Config.defaultFont
    fx0aTrigger := .edge
    fx0aKeyChoice := .lowest }

/-- The byte that the rand8 input gives at the k-th draw: free, no distribution, seed or sequence
(41_alu.md R134, 92_eei_decisions.md D27); log entry 4. -/
opaque Config.rand8 : Nat → Byte

/-- Which of several qualifying keys the k-th draw picks when FX0A_KEY_CHOICE = any: free
(44_keys_timers.md R196, 92_eei_decisions.md D15); log entry 5. -/
opaque Config.keyPick : Nat → Nat

end Sys2Proof
end

