-- ==== Sys2Proof/Machine/State.lean ====
section
/-! DEFINITION. The machine's state, whole (10_state.md), the reasons it stops, and the state after reset. -/

namespace Sys2Proof.Machine

/-- The core faults of 60_exceptions.md R211 (their numbers are in Ops.lean). The spec describes what a core fault
does (R212): the core enters HALTED(code, w). So a fault is taken as a NEXT state, and no step of this model
answers Outcome.fault; log entry 10. -/
inductive Fault where
  /-- Raised by the instruction cycle when the fetched word is Unknown (R211). Safe: D5 halts where a driver might go on. -/
  | unknownOpcode
  /-- Raised by CALL at depth STACK_LIMIT (R105, R211). Safe: it stops where an unbounded stack goes on. -/
  | stackOverflow
  /-- Raised by RET on an empty stack (R103, R211). Safe (D8). -/
  | stackUnderflow
  /-- Raised by DRW with ROW_WRAP = lineage and a set sprite bit on a row past the last (R172, R211). Safe (D14). -/
  | drawRowOutOfRange
  deriving DecidableEq, Repr

/-- Why a step has no meaning. -/
inductive Refusal where
  /-- An instruction of the table whose meaning is not written yet: only exec's arms use it. Safe. -/
  | notModelled (mnemonic : String)
  /-- A step, tick, load or resume before the first reset(), which the spec has a model refuse
  (70_reset_and_hazards.md R252). Safe; log entry 8. -/
  | beforeFirstReset
  deriving DecidableEq, Repr

/-- The key-state vector, true meaning pressed (10_state.md R34). -/
abbrev Keys := Vector Bool 16

/-- Memory: the cells that differ from what reset leaves there, addresses strictly rising (log entry 18). -/
abbrev Memory := List Host.Cell

/-- The pixels in row-major order (10_state.md R35). -/
abbrev Framebuffer := List Bool

/-- The run state (10_state.md R40). -/
inductive RunState where
  /-- RUN: the next step fetches and executes the word at PC. -/
  | run
  /-- WAIT_KEY(x, prev): FX0A at PC waits; prev is the key vector sampled last. -/
  | waitKey (x : RegIdx) (prev : Keys)
  /-- HALTED(code, w): the word w at PC faulted. -/
  | halted (code : Fault) (w : Word)
  deriving DecidableEq, Repr

/-- What step() answers (10_state.md R44). -/
inductive StepResult where
  | executed
  | waiting
  | fault (code : Fault)
  deriving DecidableEq, Repr

/-- What load(bytes) answers (70_reset_and_hazards.md R253); the number of ImageTooLarge (60_exceptions.md R211) is in
Ops.lean. -/
inductive LoadResult where
  | ok
  | imageTooLarge
  deriving DecidableEq, Repr

/-- The two ways the host resumes a halted core (60_exceptions.md R216). -/
inductive ResumeMode where
  | retry
  | skip
  deriving DecidableEq, Repr

/-- The transactions of the block's ports that change state (10_state.md R44, 00_scope.md R12), each atomic. -/
inductive PortOp where
  /-- step(): one instruction-cycle step. -/
  | step
  /-- tickTimers(): one tick. -/
  | tick
  /-- reset(). -/
  | reset
  /-- load(bytes). -/
  | load (bytes : List Byte)
  /-- resume(mode). -/
  | resume (mode : ResumeMode)
  /-- The Input Source sets the key vector. -/
  | setKeys (keys : Keys)
  deriving DecidableEq, Repr

/-- Everything the spec gives the machine, and the model's own fields params, initialised, draws and schedule. -/
structure State where
  /-- The parameters of 00_scope.md R7; log entry 1. -/
  params : Params
  /-- A reset() has happened (70_reset_and_hazards.md R252); log entry 8. -/
  initialised : Bool
  /-- V[0] to V[15] (10_state.md R20). -/
  v : Vector Byte 16
  /-- I (10_state.md R27). -/
  i : Word
  /-- PC (10_state.md R23, R24). -/
  pc : Word
  /-- The call stack, its top first (10_state.md R28); log entry 17. -/
  stack : List Addr
  /-- DT (10_state.md R30). -/
  dt : Byte
  /-- ST (10_state.md R30). -/
  st : Byte
  /-- Memory (10_state.md R33). -/
  mem : Memory
  /-- The key-state vector, an input (10_state.md R34). -/
  keys : Keys
  /-- The framebuffer (10_state.md R35). -/
  fb : Framebuffer
  /-- The run state (10_state.md R40). -/
  run : RunState
  /-- The last answer of step() (10_state.md R44); log entry 13. -/
  stepResult : Option StepResult
  /-- The last answer of load() (70_reset_and_hazards.md R253); log entry 13. -/
  loadResult : Option LoadResult
  /-- How many frame_ready events are pending (10_state.md R41); log entry 12. -/
  frameReady : Nat
  /-- How many dt_expired events are pending (10_state.md R42); log entry 12. -/
  dtExpired : Nat
  /-- How many st_expired events are pending (10_state.md R42); log entry 12. -/
  stExpired : Nat
  /-- How many free values have been drawn; log entries 4 and 5. -/
  draws : Nat
  /-- The port transactions that come next, the next one first; when there is none, the next step is an
  instruction-cycle step (00_scope.md R12, R14); log entry 6. -/
  schedule : List PortOp
  deriving DecidableEq, Repr

/-- The state after reset() of a build with parameters p (70_reset_and_hazards.md R250, R251). The spec leaves the
key vector and the random source as they are; a machine that starts here has every key released and no value
drawn (DESIGN CHOICE, log entries 3, 4). -/
def State.resetWith (p : Params) : State :=
  { params := p
    initialised := true
    v := Vector.replicate 16 0#8
    i := 0x0000#16
    pc := 0x0200#16
    stack := []
    dt := 0#8
    st := 0#8
    mem := []
    keys := Vector.replicate 16 false
    fb := List.replicate (p.displayW * p.displayH) false
    run := .run
    stepResult := none
    loadResult := none
    frameReady := 0
    dtExpired := 0
    stExpired := 0
    draws := 0
    schedule := [] }

/-- The machine right after reset, with the default parameters of 00_scope.md R7. -/
def State.reset : State := State.resetWith Params.default

end Sys2Proof.Machine
end

