-- ==== Sys2Proof/Machine/Ops.lean ====
section
/-! DEFINITION. The operations that every meaning shares: memory (20_memory.md), registers, PC and the call stack
(10_state.md), the framebuffer (10_state.md R35), the events (R41, R42), the free values, raising a fault and
returning from one (60_exceptions.md R212, R216). -/

namespace Sys2Proof.Machine

/-- What a meaning answers. -/
abbrev Result := Host.Outcome State Fault Refusal

/-! Memory -/

/-- The physical cell of an effective address (20_memory.md R51). -/
def cellOf (a : Nat) : Nat := a % 4096

/-- What a cell reads as when memory does not list it: its contents after reset, FONT_ROM at 0x000-0x04F and 0
elsewhere (70_reset_and_hazards.md R250; 20_memory.md R57). -/
def Memory.unlisted (rom : FontRom) (a : Nat) : Byte := if h : a < 80 then rom[a] else 0#8

/-- The byte in cell a. -/
def Memory.read (rom : FontRom) (m : Memory) (a : Nat) : Byte :=
  match m with
  | [] => Memory.unlisted rom a
  | (k, b) :: rest => if k = a then b else Memory.read rom rest a

/-- Memory without an entry for cell a. -/
def Memory.unlist (m : Memory) (a : Nat) : Memory := m.filter (fun c => c.1 != a)

/-- Memory with the entry (a, b) before the first entry of a higher or equal address. -/
def Memory.enlist (m : Memory) (a : Nat) (b : Byte) : Memory :=
  match m with
  | [] => [(a, b)]
  | (k, c) :: rest => if k < a then (k, c) :: Memory.enlist rest a b else (a, b) :: (k, c) :: rest

/-- Store b in cell a, keeping the canonical form: a cell that reads as after reset is not listed. -/
def Memory.write (rom : FontRom) (m : Memory) (a : Nat) (b : Byte) : Memory :=
  if b = Memory.unlisted rom a then Memory.unlist m a else Memory.enlist (Memory.unlist m a) a b

/-- Every listed cell has an address from lo on and below 0x1000, the addresses rise strictly, and no cell is
listed that reads as after reset. -/
def Memory.wfFrom (rom : FontRom) (lo : Nat) (m : Memory) : Bool :=
  match m with
  | [] => true
  | (k, b) :: rest =>
    decide (lo ≤ k) && decide (k < 4096) && decide (b ≠ Memory.unlisted rom k) && Memory.wfFrom rom (k + 1) rest

/-- The canonical form of memory; log entry 18. -/
def Memory.wf (rom : FontRom) (m : Memory) : Bool := Memory.wfFrom rom 0 m

/-- MemRead(a, 1) (20_memory.md R51). -/
def State.memRead (s : State) (a : Nat) : Byte := Memory.read s.params.fontRom s.mem (cellOf a)

/-- MemWrite(a, 1, b) (20_memory.md R51). -/
def State.memWrite (s : State) (a : Nat) (b : Byte) : State :=
  { s with mem := Memory.write s.params.fontRom s.mem (cellOf a) b }

/-- Store bytes at a, a + 1, ... in that order. -/
def State.memWrites (s : State) (a : Nat) (bytes : List Byte) : State :=
  match bytes with
  | [] => s
  | b :: rest => (s.memWrite a b).memWrites (a + 1) rest

/-- The instruction word at PC, big-endian (20_memory.md R52). -/
def State.fetchWord (s : State) : Word := wordOfBytes (s.memRead s.pc.toNat) (s.memRead (s.pc.toNat + 1))

/-! Registers -/

/-- V[x] (00_scope.md R9). -/
def State.reg (s : State) (x : RegIdx) : Byte := s.v[x.toNat]

/-- V[x] <- b (00_scope.md R9). -/
def State.setReg (s : State) (x : RegIdx) (b : Byte) : State := { s with v := s.v.set x.toNat b x.isLt }

/-- I <- a, keeping all 16 bits (10_state.md R27). -/
def State.setI (s : State) (a : Word) : State := { s with i := a }

/-- DT <- b (10_state.md R30). -/
def State.setDt (s : State) (b : Byte) : State := { s with dt := b }

/-- ST <- b (10_state.md R30). -/
def State.setSt (s : State) (b : Byte) : State := { s with st := b }

/-- The output sound_active (10_state.md R42). -/
def State.soundActive (s : State) : Bool := s.st != 0#8

/-! The program counter and the end of an instruction -/

/-- PC <- a, mod 4096 (10_state.md R24). -/
def State.setPc (s : State) (a : Nat) : State := { s with pc := BitVec.ofNat 16 (a % 4096) }

/-- step_result <- r (10_state.md R44). -/
def State.setStepResult (s : State) (r : StepResult) : State := { s with stepResult := some r }

/-- The end of an instruction whose next PC is a (10_state.md R25; 40_control_flow.md R100). -/
def State.finishAt (s : State) (a : Nat) : State := (s.setPc a).setStepResult .executed

/-- The end of an instruction that advances PC by k (10_state.md R25). -/
def State.finish (s : State) (k : Nat) : State := s.finishAt (s.pc.toNat + k)

/-- The end of a skip instruction: PC + 4 when the condition holds, else PC + 2 (10_state.md R25). -/
def State.skipIf (s : State) (c : Bool) : State := s.finish (if c then 4 else 2)

/-! The call stack -/

/-- Push(a) faults: STACK_LIMIT is finite and depth = STACK_LIMIT (10_state.md R28). -/
def State.stackFull (s : State) : Bool := s.params.stackLimit == some s.stack.length

/-- Append a as the new top (10_state.md R28). -/
def State.push (s : State) (a : Addr) : State := { s with stack := a :: s.stack }

/-- Leave rest as the stack: the top entry removed (10_state.md R28). -/
def State.setStack (s : State) (rest : List Addr) : State := { s with stack := rest }

/-- The address of the next instruction in order, which CALL pushes (40_control_flow.md R105). -/
def State.returnAddress (s : State) : Addr := BitVec.ofNat 12 ((s.pc.toNat + 2) % 4096)

/-! The framebuffer -/

/-- The element of the framebuffer for column c and row r (10_state.md R35). -/
def pixelIndex (p : Params) (c r : Nat) : Nat := r * p.displayW + c

/-- Pix(c, r) on a framebuffer (00_scope.md R9). -/
def Framebuffer.get (p : Params) (fb : Framebuffer) (c r : Nat) : Bool := fb.getD (pixelIndex p c r) false

/-- SetPix(c, r, b) on a framebuffer (00_scope.md R9). -/
def Framebuffer.put (p : Params) (fb : Framebuffer) (c r : Nat) (b : Bool) : Framebuffer := fb.set (pixelIndex p c r) b

/-- Pix(c, r). -/
def State.pix (s : State) (c r : Nat) : Bool := Framebuffer.get s.params s.fb c r

/-- A framebuffer with every pixel false (70_reset_and_hazards.md R250; 43_display.md R170). -/
def clearFb (p : Params) : Framebuffer := List.replicate (p.displayW * p.displayH) false

/-- The framebuffer after a drawing instruction, with its frame_ready event (43_display.md R175). -/
def State.present (s : State) (fb : Framebuffer) : State := { s with fb := fb, frameReady := s.frameReady + 1 }

/-! Free values -/

/-- Count one free value as drawn. -/
def State.drawn (s : State) : State := { s with draws := s.draws + 1 }

/-! Faults: taking one and returning from one -/

/-- The number of a core fault (60_exceptions.md R211). -/
def Fault.code (c : Fault) : Nat :=
  match c with
  | .unknownOpcode => 1
  | .stackOverflow => 2
  | .stackUnderflow => 3
  | .drawRowOutOfRange => 4

/-- The number of a failed load, none for Ok: ImageTooLarge is the table's code 5, a load result and not a core fault
(60_exceptions.md R211, R213). -/
def LoadResult.code (r : LoadResult) : Option Nat :=
  match r with
  | .ok => none
  | .imageTooLarge => some 5

/-- raise Fault(code) at the instruction word w: the run state and step_result change and nothing else
(60_exceptions.md R212). -/
def State.raiseFault (s : State) (code : Fault) (w : Word) : State :=
  { s with run := .halted code w, stepResult := some (.fault code) }

/-- resume(mode): leave HALTED, for skip with PC advanced by 2 first; no effect in another run state
(60_exceptions.md R216). -/
def State.resume (s : State) (mode : ResumeMode) : State :=
  match s.run with
  | .halted _ _ =>
    match mode with
    | .retry => { s with run := .run }
    | .skip => { s.setPc (s.pc.toNat + 2) with run := .run }
  | .waitKey _ _ => s
  | .run => s

end Sys2Proof.Machine
end

