-- ==== Sys2Proof/Machine/Operands.lean ====
section
/-! DEFINITION. The operand forms (30_encoding.md R73, R74): addresses formed from I, the register block of FX55 and
FX65, decimal digits, the glyph address, key indices, and the sprite of DXYN. -/

namespace Sys2Proof.Machine

/-- zext_16(NNN) (30_encoding.md R73). -/
def zextAddr (nnn : Addr) : Word := nnn.setWidth 16

/-- (I + b) mod 65536 (42_index_memory.md R151). -/
def indexPlus (i : Word) (b : Byte) : Word := BitVec.ofNat 16 (i.toNat + b.toNat)

/-- b * 5, the address of a glyph, with no mask (42_index_memory.md R152). -/
def glyphAddress (b : Byte) : Word := BitVec.ofNat 16 (b.toNat * 5)

/-- The hundreds, tens and ones of a byte (42_index_memory.md R153). -/
def decimalDigits (b : Byte) : List Byte :=
  [BitVec.ofNat 8 (b.toNat / 100), BitVec.ofNat 8 (b.toNat / 10 % 10), BitVec.ofNat 8 (b.toNat % 10)]

/-- The indices 0..x, ascending (42_index_memory.md R154, R155). -/
def blockIndices (x : RegIdx) : List Nat := List.range (x.toNat + 1)

/-- V[k] for a number k in 0..15. -/
def State.regAt (s : State) (k : Nat) : Byte := s.reg (BitVec.ofNat 4 k)

/-- V[0..x] in order (42_index_memory.md R154). -/
def State.regBlock (s : State) (x : RegIdx) : List Byte := (blockIndices x).map s.regAt

/-- V[k] <- mem[I + k] (42_index_memory.md R155). -/
def State.loadIndexed (s : State) (k : Nat) : State := s.setReg (BitVec.ofNat 4 k) (s.memRead (s.i.toNat + k))

/-- V[0..x] <- mem[I..I+x], ascending (42_index_memory.md R155). -/
def State.loadBlock (s : State) (x : RegIdx) : State := (blockIndices x).foldl State.loadIndexed s

/-! Keys -/

/-- V[x] mod 16 as a key index (44_keys_timers.md R190). -/
def keyIndex (b : Byte) : KeyIdx := b.setWidth 4

/-- Key(k) in a key vector (00_scope.md R9). -/
def Keys.down (keys : Keys) (k : KeyIdx) : Bool := keys[k.toNat]

/-- The 16 key indices, ascending. -/
def allKeys : List KeyIdx := (List.range 16).map (BitVec.ofNat 4)

/-- The pressed keys, ascending: the set Q for FX0A_TRIGGER = level (44_keys_timers.md R194, R195). -/
def Keys.pressed (now : Keys) : List KeyIdx := allKeys.filter (fun k => now.down k)

/-- The keys pressed now and not in prev, ascending: the set Q for FX0A_TRIGGER = edge (44_keys_timers.md R195). -/
def Keys.newlyPressed (prev now : Keys) : List KeyIdx := allKeys.filter (fun k => now.down k && !prev.down k)

/-- The keys that end a wait whose last sample was prev (44_keys_timers.md R195). -/
def Keys.qualifying (t : KeyTrigger) (prev now : Keys) : List KeyIdx :=
  match t with
  | .edge => Keys.newlyPressed prev now
  | .level => now.pressed

/-- V[x] receives choose(Q), Q being k and rest in ascending order, and PC advances by 2: the lowest key, or with
FX0A_KEY_CHOICE = any a free choice among them (44_keys_timers.md R196). -/
def State.takeKey (s : State) (x : RegIdx) (k : KeyIdx) (rest : List KeyIdx) : State :=
  match s.params.fx0aKeyChoice with
  | .lowest => (s.setReg x (k.setWidth 8)).finish 2
  | .any =>
    ((s.drawn).setReg x (((k :: rest).getD (Config.keyPick s.draws % (rest.length + 1)) k).setWidth 8)).finish 2

/-! The sprite of DXYN -/

/-- The sprite byte of a row (43_display.md R171). -/
def State.spriteByte (s : State) (row : Nat) : Byte := s.memRead (s.i.toNat + row)

/-- Bit number bit of a sprite byte, bit 0 being the most significant (43_display.md R171). -/
def spriteBit (b : Byte) (bit : Nat) : Bool := b.getLsbD (7 - bit)

/-- The framebuffer row of a sprite row, per ROW_WRAP (43_display.md R171, R172). -/
def targetRow (p : Params) (cy row : Nat) : Nat :=
  match p.rowWrap with
  | .wrap => (cy + row) % p.displayH
  | .lineage => cy + row

/-- The framebuffer column of a sprite bit (43_display.md R171). -/
def targetColumn (p : Params) (cx bit : Nat) : Nat := (cx + bit) % p.displayW

/-- One set bit's XOR toggle, and the collision it may make (43_display.md R171). -/
def togglePixel (p : Params) (acc : Framebuffer × Bool) (c r : Nat) : Framebuffer × Bool :=
  (Framebuffer.put p acc.1 c r (!Framebuffer.get p acc.1 c r), acc.2 || Framebuffer.get p acc.1 c r)

/-- One row of the sprite, its bits from the most significant (43_display.md R171). -/
def drawRow (p : Params) (cx cy : Nat) (byteOf : Nat → Byte) (acc : Framebuffer × Bool) (row : Nat) : Framebuffer × Bool :=
  (List.range 8).foldl
    (fun acc bit =>
      if spriteBit (byteOf row) bit then togglePixel p acc (targetColumn p cx bit) (targetRow p cy row) else acc)
    acc

/-- The n rows of the sprite, in order: the framebuffer afterwards and whether a set pixel was turned off
(43_display.md R171). -/
def State.drawSprite (s : State) (cx cy n : Nat) : Framebuffer × Bool :=
  (List.range n).foldl (drawRow s.params cx cy s.spriteByte) (s.fb, false)

/-- The check of ROW_WRAP = lineage: some row with a set bit lies past the last framebuffer row (43_display.md R172). -/
def State.rowOutOfRange (s : State) (cy n : Nat) : Bool :=
  s.params.rowWrap == .lineage &&
    (List.range n).any (fun row => s.spriteByte row != 0#8 && decide (s.params.displayH ≤ cy + row))

end Sys2Proof.Machine
end

