-- ==== Sys2Proof/Machine/Flags.lean ====
section
/-! DEFINITION. The ALU and its flag (41_alu.md R120, R121), and the order of its writes (R122). -/

namespace Sys2Proof.Machine

/-- The ALU's functions (41_alu.md R120). -/
inductive AluFn where
  | passB
  | addNF
  | or
  | and
  | xor
  | add
  | sub
  | shr
  | subn
  | shl
  deriving DecidableEq, Repr

/-- An exact sum or shifted value narrowed to 8 bits, mod 256 (41_alu.md R121). -/
def narrow (n : Nat) : Byte := BitVec.ofNat 8 n

/-- The result column of 41_alu.md R120. -/
def aluResult (f : AluFn) (a b : Byte) : Byte :=
  match f with
  | .passB => b
  | .addNF => narrow (a.toNat + b.toNat)
  | .or => a ||| b
  | .and => a &&& b
  | .xor => a ^^^ b
  | .add => narrow (a.toNat + b.toNat)
  | .sub => a - b
  | .shr => a >>> 1
  | .subn => b - a
  | .shl => narrow (a.toNat * 2)

/-- The flag column of 41_alu.md R120, none where the function has no flag. -/
def aluFlag (f : AluFn) (a b : Byte) : Option Bool :=
  match f with
  | .passB => none
  | .addNF => none
  | .or => none
  | .and => none
  | .xor => none
  | .add => some (decide (a.toNat + b.toNat > 255))
  | .sub => some (decide (a.toNat ≥ b.toNat))
  | .shr => some (a.getLsbD 0)
  | .subn => some (decide (b.toNat ≥ a.toNat))
  | .shl => some (a.getLsbD 7)

/-- A flag as the value of VF (10_state.md R31). -/
def flagByte (c : Bool) : Byte := if c then 1#8 else 0#8

/-- VF <- c (10_state.md R31). -/
def State.setFlag (s : State) (c : Bool) : State := s.setReg vF (flagByte c)

/-- VF <- the flag, where there is one. -/
def State.setFlagOpt (s : State) (c : Option Bool) : State :=
  match c with
  | none => s
  | some c => s.setFlag c

/-- V[x] <- f(V[x], b), then VF <- the flag last (41_alu.md R122). -/
def State.applyAlu (s : State) (f : AluFn) (x : RegIdx) (b : Byte) : State :=
  (s.setReg x (aluResult f (s.reg x) b)).setFlagOpt (aluFlag f (s.reg x) b)

end Sys2Proof.Machine
end

