-- ==== Sys2Proof/Machine/Alu.lean ====
section
/-! DEFINITION. The register and ALU instructions (41_alu.md). Each advances PC by 2. -/

namespace Sys2Proof.Machine

/-- LD.imm (R123). -/
def execLdImm (x : RegIdx) (nn : Byte) (s : State) : Result := .next ((s.applyAlu .passB x nn).finish 2)

/-- ADD.imm (R124): no flag. -/
def execAddImm (x : RegIdx) (nn : Byte) (s : State) : Result := .next ((s.applyAlu .addNF x nn).finish 2)

/-- LD.reg (R125). -/
def execLdReg (x y : RegIdx) (s : State) : Result := .next ((s.applyAlu .passB x (s.reg y)).finish 2)

/-- OR (R126): VF is not cleared. -/
def execOr (x y : RegIdx) (s : State) : Result := .next ((s.applyAlu .or x (s.reg y)).finish 2)

/-- AND (R127). -/
def execAnd (x y : RegIdx) (s : State) : Result := .next ((s.applyAlu .and x (s.reg y)).finish 2)

/-- XOR (R128). -/
def execXor (x y : RegIdx) (s : State) : Result := .next ((s.applyAlu .xor x (s.reg y)).finish 2)

/-- ADD.reg (R129): VF <- carry. -/
def execAddReg (x y : RegIdx) (s : State) : Result := .next ((s.applyAlu .add x (s.reg y)).finish 2)

/-- SUB (R130): VF <- no borrow. -/
def execSub (x y : RegIdx) (s : State) : Result := .next ((s.applyAlu .sub x (s.reg y)).finish 2)

/-- SHR (R131): V[Y] is not read. -/
def execShr (x _y : RegIdx) (s : State) : Result := .next ((s.applyAlu .shr x 0#8).finish 2)

/-- SUBN (R132). -/
def execSubn (x y : RegIdx) (s : State) : Result := .next ((s.applyAlu .subn x (s.reg y)).finish 2)

/-- SHL (R133): V[Y] is not read. -/
def execShl (x _y : RegIdx) (s : State) : Result := .next ((s.applyAlu .shl x 0#8).finish 2)

/-- RND (R134): one free byte a step; log entry 4. -/
def execRnd (x : RegIdx) (nn : Byte) (s : State) : Result :=
  .next ((s.drawn.setReg x (nn &&& Config.rand8 s.draws)).finish 2)

end Sys2Proof.Machine
end

