-- ==== Sys2Proof/Machine/Control.lean ====
section
/-! DEFINITION. The control-transfer instructions (40_control_flow.md). -/

namespace Sys2Proof.Machine

/-- SYS (R102): no host call, NNN has no effect. -/
def execSys (_nnn : Addr) (s : State) : Result := .next (s.finish 2)

/-- RET (R103): StackUnderflow on an empty stack, else PC <- the popped address. -/
def execRet (s : State) : Result :=
  match s.stack with
  | [] => .next (s.raiseFault .stackUnderflow (encode .ret))
  | a :: rest => .next ((s.setStack rest).finishAt a.toNat)

/-- JP (R104). -/
def execJp (nnn : Addr) (s : State) : Result := .next (s.finishAt nnn.toNat)

/-- CALL (R105): StackOverflow on a full stack, else the return address is pushed. -/
def execCall (nnn : Addr) (s : State) : Result :=
  if s.stackFull then .next (s.raiseFault .stackOverflow (encode (.call nnn)))
  else .next ((s.push s.returnAddress).finishAt nnn.toNat)

/-- SE.imm (R106). -/
def execSeImm (x : RegIdx) (nn : Byte) (s : State) : Result := .next (s.skipIf (s.reg x == nn))

/-- SNE.imm (R107). -/
def execSneImm (x : RegIdx) (nn : Byte) (s : State) : Result := .next (s.skipIf (s.reg x != nn))

/-- SE.reg (R108). -/
def execSeReg (x y : RegIdx) (s : State) : Result := .next (s.skipIf (s.reg x == s.reg y))

/-- SNE.reg (R109). -/
def execSneReg (x y : RegIdx) (s : State) : Result := .next (s.skipIf (s.reg x != s.reg y))

/-- JP.V0 (R110): V[0], whatever bits 11-8 of the word hold. -/
def execJpV0 (nnn : Addr) (s : State) : Result := .next (s.finishAt ((s.reg 0x0#4).toNat + nnn.toNat))

end Sys2Proof.Machine
end

