-- ==== Sys2Proof/Machine/Display.lean ====
section
/-! DEFINITION. The display instructions (43_display.md). -/

namespace Sys2Proof.Machine

/-- CLS (R170): VF is unchanged, and frame_ready is raised. -/
def execCls (s : State) : Result := .next ((s.present (clearFb s.params)).finish 2)

/-- DRW (R171, R172, R174): the coordinates are latched first and VF is written last. -/
def execDrw (x y : RegIdx) (n : Nibble) (s : State) : Result :=
  if s.rowOutOfRange (s.reg y).toNat n.toNat then .next (s.raiseFault .drawRowOutOfRange (encode (.drw x y n)))
  else
    let drawing := s.drawSprite (s.reg x).toNat (s.reg y).toNat n.toNat
    .next (((s.present drawing.1).setFlag drawing.2).finish 2)

end Sys2Proof.Machine
end

