-- ==== Sys2Proof/Machine/IndexMemory.lean ====
section
/-! DEFINITION. The index register and memory instructions (42_index_memory.md). Each advances PC by 2. -/

namespace Sys2Proof.Machine

/-- LD.I (R150). -/
def execLdI (nnn : Addr) (s : State) : Result := .next ((s.setI (zextAddr nnn)).finish 2)

/-- ADD.I (R151): VF is not written. -/
def execAddI (x : RegIdx) (s : State) : Result := .next ((s.setI (indexPlus s.i (s.reg x))).finish 2)

/-- LD.F (R152): V[X] is not masked to its low nibble. -/
def execLdF (x : RegIdx) (s : State) : Result := .next ((s.setI (glyphAddress (s.reg x))).finish 2)

/-- LD.B (R153). -/
def execLdB (x : RegIdx) (s : State) : Result := .next ((s.memWrites s.i.toNat (decimalDigits (s.reg x))).finish 2)

/-- ST.I (R154): I is unchanged. -/
def execStI (x : RegIdx) (s : State) : Result := .next ((s.memWrites s.i.toNat (s.regBlock x)).finish 2)

/-- LD.Vx.I (R155): I is unchanged. -/
def execLdVxI (x : RegIdx) (s : State) : Result := .next ((s.loadBlock x).finish 2)

end Sys2Proof.Machine
end

