-- ==== Sys2Proof/Machine/KeysTimers.lean ====
section
/-! DEFINITION. The key and timer instructions (44_keys_timers.md), and the poll of a waiting FX0A (R195). -/

namespace Sys2Proof.Machine

/-- SKP (R191). -/
def execSkp (x : RegIdx) (s : State) : Result := .next (s.skipIf (s.keys.down (keyIndex (s.reg x))))

/-- SKNP (R192). -/
def execSknp (x : RegIdx) (s : State) : Result := .next (s.skipIf (!s.keys.down (keyIndex (s.reg x))))

/-- LD.Vx.DT (R193). -/
def execLdVxDt (x : RegIdx) (s : State) : Result := .next ((s.setReg x s.dt).finish 2)

/-- Wait for a key with the present sample remembered; PC is unchanged (R194, R195). -/
def State.waitForKey (s : State) (x : RegIdx) : State :=
  { s with run := .waitKey x s.keys, stepResult := some .waiting }

/-- The keys that end FX0A in its first step: with FX0A_TRIGGER = level the pressed ones, with edge none (R194). -/
def State.firstKeys (s : State) : List KeyIdx :=
  match s.params.fx0aTrigger with
  | .edge => []
  | .level => s.keys.pressed

/-- LD.Vx.K, first step (R194). -/
def execLdVxK (x : RegIdx) (s : State) : Result :=
  match s.firstKeys with
  | [] => .next (s.waitForKey x)
  | k :: rest => .next (s.takeKey x k rest)

/-- LD.Vx.K, a later step: one poll of the key vector in WAIT_KEY(x, prev) (R195). -/
def State.pollKeys (s : State) (x : RegIdx) (prev : Keys) : State :=
  match Keys.qualifying s.params.fx0aTrigger prev s.keys with
  | [] => s.waitForKey x
  | k :: rest => { s.takeKey x k rest with run := .run }

/-- LD.DT (R197): no event, whatever is written. -/
def execLdDt (x : RegIdx) (s : State) : Result := .next ((s.setDt (s.reg x)).finish 2)

/-- LD.ST (R198): no event, whatever is written. -/
def execLdSt (x : RegIdx) (s : State) : Result := .next ((s.setSt (s.reg x)).finish 2)

end Sys2Proof.Machine
end

