-- ==== Sys2Proof/Machine/Ports.lean ====
section
/-! DEFINITION. The transactions of the other agents: the timer tick (60_exceptions.md R222), reset and load
(70_reset_and_hazards.md R250, R253), and a change of the key vector (10_state.md R34). -/

namespace Sys2Proof.Machine

/-- A counter after one tick: one less, and 0 stays 0 (60_exceptions.md R222). -/
def tickDown (b : Byte) : Byte := if b = 0#8 then 0#8 else b - 1#8

/-- How many expiry events one tick of a counter raises: one when it moves the counter from 1 to 0
(10_state.md R42). -/
def expiries (b : Byte) : Nat := if b = 1#8 then 1 else 0

/-- tickTimers() (60_exceptions.md R222). -/
def State.tickTimers (s : State) : State :=
  { s with
    dt := tickDown s.dt
    st := tickDown s.st
    dtExpired := s.dtExpired + expiries s.dt
    stExpired := s.stExpired + expiries s.st }

/-- reset(): the key vector and the random source are left alone, and so is what the outside does next
(70_reset_and_hazards.md R250, R251). -/
def State.hostReset (s : State) : State :=
  { State.resetWith s.params with keys := s.keys, draws := s.draws, schedule := s.schedule }

/-- load(bytes): all or nothing, from 0x200 on (70_reset_and_hazards.md R253). -/
def State.hostLoad (s : State) (bytes : List Byte) : State :=
  if 0x200 + bytes.length > 0x1000 then { s with loadResult := some .imageTooLarge }
  else { s.memWrites 0x200 bytes with loadResult := some .ok }

/-- The Input Source sets the key vector (10_state.md R34; 60_exceptions.md R227). -/
def State.setKeys (s : State) (keys : Keys) : State := { s with keys := keys }

end Sys2Proof.Machine
end

