-- ==== Sys2Proof/Machine/Cycle.lean ====
section
/-! DEFINITION. One instruction-cycle step (40_control_flow.md R100), and one transaction of a port
(10_state.md R44). -/

namespace Sys2Proof.Machine

/-- The step of a core in RUN: fetch, decode, execute; an Unknown word raises UnknownOpcode
(40_control_flow.md R100). -/
def fetchExecute (s : State) : Result :=
  match decode s.fetchWord with
  | none => .next (s.raiseFault .unknownOpcode s.fetchWord)
  | some k => exec k s

/-- step(), by run state (40_control_flow.md R100). A halted core's step has no effect (92_eei_decisions.md D5); log
entry 9. -/
def instructionStep (s : State) : Result :=
  match s.run with
  | .run => fetchExecute s
  | .waitKey x prev => .next (s.pollKeys x prev)
  | .halted _ _ => .next s

/-- A transaction that has no defined effect before the first reset() (70_reset_and_hazards.md R252); log entry 8. -/
def afterReset (s : State) (r : Result) : Result := if s.initialised then r else .refused .beforeFirstReset

/-- One transaction of a port (10_state.md R44). -/
def portStep (op : PortOp) (s : State) : Result :=
  match op with
  | .step => afterReset s (instructionStep s)
  | .tick => afterReset s (.next s.tickTimers)
  | .reset => .next s.hostReset
  | .load bytes => afterReset s (.next (s.hostLoad bytes))
  | .resume mode => afterReset s (.next (s.resume mode))
  | .setKeys keys => .next (s.setKeys keys)

/-- The next transaction of the schedule, and a step of the core when the schedule is empty (00_scope.md R12, R14);
log entry 6. -/
def nextTransaction (s : State) : Result :=
  match s.schedule with
  | [] => portStep .step s
  | op :: rest => portStep op { s with schedule := rest }

/-- The word placed at PC, big-endian, in a machine whose next transaction is the step that fetches it; log entry 7. -/
def placeFetchWord (s : State) (w : Word) : State :=
  let placed := s.memWrites s.pc.toNat [highByte w, lowByte w]
  { placed with initialised := true, run := .run, schedule := [] }

end Sys2Proof.Machine
end

