-- ==== Sys2Proof/Machine/Runs.lean ====
section
/-! DEFINITION. Unending runs, in which the two agents and the host interleave in any order, and the fairness premise
(00_scope.md R12, R14). A run is a sequence of states and of transactions, one transaction offered to each step. -/

namespace Sys2Proof.Machine

/-- The state with op as its one pending transaction, which the next step performs; log entry 6. -/
def State.offered (s : State) (op : PortOp) : State := { s with schedule := [op] }

/-- The states are a run of the machine under the interleaving ops: step k performs ops k (00_scope.md R12). Every
sequence of transactions is an interleaving, and no run ends (R14). -/
def isRun (ops : Nat → PortOp) (states : Nat → State) : Prop :=
  ∀ k, step ((states k).offered (ops k)) = .next (states (k + 1))

/-- The property holds again and again, without end. -/
def recurs (p : Nat → Prop) : Prop := ∀ n, ∃ m, n ≤ m ∧ p m

/-- The core is in HALTED (10_state.md R40). -/
def State.isHalted (s : State) : Prop := ∃ c w, s.run = .halted c w

/-- The timer agent's half of the fairness premise: ticks keep occurring (00_scope.md R14). -/
def ticksKeepOccurring (ops : Nat → PortOp) : Prop := recurs (fun m => ops m = .tick)

/-- The instruction-cycle agent's half: instruction steps keep occurring while the core is not halted
(00_scope.md R14). -/
def stepsKeepOccurring (ops : Nat → PortOp) (states : Nat → State) : Prop :=
  recurs (fun m => ops m = .step ∨ (states m).isHalted)

/-- A run that meets the fairness premise of 00_scope.md R14. -/
def isFairRun (ops : Nat → PortOp) (states : Nat → State) : Prop :=
  isRun ops states ∧ ticksKeepOccurring ops ∧ stepsKeepOccurring ops states

end Sys2Proof.Machine
end

