-- ==== Sys2Proof/Safety.lean ====
section
/-! DEFINITION. The terms that the statements use: the invariant of a machine that runs, the tables of who writes
what (10_state.md R22, R31), the cells a sprite reaches (43_display.md R171), and the relation between states
that differ in I's upper bits only (10_state.md R27). -/

namespace Sys2Proof.Machine

/-! Runs -/

/-- Step m of a run executes instruction i: the transaction is step() and the core, in RUN, fetches i's word
(40_control_flow.md R100). -/
def executesAt (ops : Nat → PortOp) (states : Nat → State) (m : Nat) (i : Instr) : Prop :=
  ops m = .step ∧ (states m).run = .run ∧ decode (states m).fetchWord = some i

/-! The schedule -/

/-- The transaction that the next step performs: the head of the schedule, or step() when it is empty (log entry 6). -/
abbrev State.nextOp (s : State) : PortOp := s.schedule.headD .step

/-- The state with the next transaction taken off the schedule. -/
abbrev State.taken (s : State) : State := { s with schedule := s.schedule.tail }

/-! The invariant -/

/-- The stack holds at most STACK_LIMIT entries (10_state.md R28). -/
abbrev State.stackWithinLimit (s : State) : Prop :=
  match s.params.stackLimit with
  | none => True
  | some n => s.stack.length ≤ n

/-- What a reset machine keeps: PC within 0x000..0xFFF (10_state.md R24), memory in its canonical form, a framebuffer
of DISPLAY_W x DISPLAY_H pixels (R35), a stack within its limit (R28). -/
abbrev State.coherent (s : State) : Prop :=
  s.pc.toNat < 4096 ∧ Memory.wf s.params.fontRom s.mem = true ∧
    s.fb.length = s.params.displayW * s.params.displayH ∧ s.stackWithinLimit

/-- The invariant: the parameters have values 00_scope.md R7 allows, and after the first reset the machine is
coherent (before it no field has a value, 70_reset_and_hazards.md R252). -/
abbrev State.Inv (s : State) : Prop := s.params.wf ∧ (s.initialised = true → s.coherent)

/-! Who writes what -/

/-- The instructions that set VF as a flag (10_state.md R31). -/
def setsFlag (i : Instr) : Bool :=
  match i with
  | .addReg _ _ => true
  | .sub _ _ => true
  | .shr _ _ => true
  | .subn _ _ => true
  | .shl _ _ => true
  | .drw _ _ _ => true
  | _ => false

/-- The writes column of 10_state.md R22 without the flag: V[z] is a destination of i. -/
def writesReg (i : Instr) (z : RegIdx) : Bool :=
  match i with
  | .ldImm x _ => z == x
  | .addImm x _ => z == x
  | .ldReg x _ => z == x
  | .orReg x _ => z == x
  | .andReg x _ => z == x
  | .xorReg x _ => z == x
  | .addReg x _ => z == x
  | .sub x _ => z == x
  | .shr x _ => z == x
  | .subn x _ => z == x
  | .shl x _ => z == x
  | .rnd x _ => z == x
  | .ldVxDt x => z == x
  | .ldVxK x => z == x
  | .ldVxI x => decide (z.toNat ≤ x.toNat)
  | _ => false

/-- The instructions that store to memory (20_memory.md R55). -/
def storesMemory (i : Instr) : Bool :=
  match i with
  | .ldB _ => true
  | .stI _ => true
  | _ => false

/-- The instructions that write the framebuffer (10_state.md R35). -/
def writesFramebuffer (i : Instr) : Bool :=
  match i with
  | .cls => true
  | .drw _ _ _ => true
  | _ => false

/-- The instructions that write I (42_index_memory.md R150, R151, R152). -/
def writesIndex (i : Instr) : Bool :=
  match i with
  | .ldI _ => true
  | .addI _ => true
  | .ldF _ => true
  | _ => false

/-- The condition of a skip instruction, none for every other instruction (10_state.md R25). -/
def skipCondition (i : Instr) (s : State) : Option Bool :=
  match i with
  | .seImm x nn => some (decide (s.reg x = nn))
  | .sneImm x nn => some (decide (s.reg x ≠ nn))
  | .seReg x y => some (decide (s.reg x = s.reg y))
  | .sneReg x y => some (decide (s.reg x ≠ s.reg y))
  | .skp x => some (s.keys.down (keyIndex (s.reg x)))
  | .sknp x => some (!s.keys.down (keyIndex (s.reg x)))
  | _ => none

/-- The PC after an instruction that completes, by the classes of 10_state.md R25. -/
def nextPc (i : Instr) (s : State) : Nat :=
  match i with
  | .jp nnn => nnn.toNat
  | .call nnn => nnn.toNat
  | .ret => (s.stack.headD 0#12).toNat
  | .jpV0 nnn => ((s.reg 0#4).toNat + nnn.toNat) % 4096
  | _ =>
    match skipCondition i s with
    | some true => (s.pc.toNat + 4) % 4096
    | _ => (s.pc.toNat + 2) % 4096

/-! The sprite -/

/-- The column and row of every set bit of an n-row sprite at (cx, cy), in the order DXYN reaches them
(43_display.md R171). -/
def State.spriteCells (s : State) (cx cy n : Nat) : List (Nat × Nat) :=
  (List.range n).flatMap (fun row =>
    (List.range 8).filterMap (fun bit =>
      if (s.spriteByte row).getLsbD (7 - bit) then
        some ((cx + bit) % s.params.displayW,
          if s.params.rowWrap = .wrap then (cy + row) % s.params.displayH else cy + row)
      else none))

/-- Pixel (c, r) after the cells in the list were toggled one by one. -/
def State.pixAfter (s : State) (cells : List (Nat × Nat)) (c r : Nat) : Bool :=
  s.pix c r ^^ decide (cells.count (c, r) % 2 = 1)

/-- Some toggle of the list, in order, finds its pixel set and so turns it off. -/
def State.someTurnedOff (s : State) (cells : List (Nat × Nat)) : Prop :=
  ∃ k, ∃ h : k < cells.length, s.pixAfter (cells.take k) cells[k].1 cells[k].2 = true

/-- ROW_WRAP = lineage and some row with a set bit is past the last one (43_display.md R172). -/
def State.drawsPastLastRow (s : State) (cy n : Nat) : Prop :=
  s.params.rowWrap = .lineage ∧ ∃ row, row < n ∧ s.spriteByte row ≠ 0#8 ∧ s.params.displayH ≤ cy + row

/-! Indifference to I's upper bits -/

/-- The two states agree in everything but bits 15-12 of I. -/
def State.sameButHighI (s t : State) : Prop :=
  t = { s with i := t.i } ∧ t.i.toNat % 4096 = s.i.toNat % 4096

/-- The two answers are next states that agree in everything but bits 15-12 of I. -/
def agreeButHighI (a b : Result) : Prop :=
  ∃ s t, a = .next s ∧ b = .next t ∧ s.sameButHighI t

end Sys2Proof.Machine
end

