-- ==== Sys2Proof/Certificates/Slice0/Obligations.lean ====
section
/-! DEFINITION. The statements for the provers. In each, "t = { s with ... }" is the frame: every field not
named in it is unchanged. -/

open Sys2Proof Sys2Proof.Machine

/-! Encoding -/

/-- Words written out from the spec's patterns and the decoder vectors of 95_test_vectors.md 2.1, one or more of
every family, decode to the instruction, or to none, that the spec gives them. -/
def Obligations.SpecWordsDecode : Prop :=
  decode 0x0000#16 = none ∧ decode 0x0001#16 = some (.sys 0x001) ∧ decode 0x00E0#16 = some .cls ∧
  decode 0x00E1#16 = some (.sys 0x0E1) ∧ decode 0x00EE#16 = some .ret ∧ decode 0x0FFF#16 = some (.sys 0xFFF) ∧
  decode 0x220A#16 = some (.call 0x20A) ∧ decode 0x5120#16 = some (.seReg 0x1 0x2) ∧ decode 0x5121#16 = none ∧
  decode 0x620A#16 = some (.ldImm 0x2 0x0A) ∧ decode 0x8008#16 = none ∧ decode 0x800E#16 = some (.shl 0x0 0x0) ∧
  decode 0x800F#16 = none ∧ decode 0x8216#16 = some (.shr 0x2 0x1) ∧ decode 0x9AB0#16 = some (.sneReg 0xA 0xB) ∧
  decode 0x9AB7#16 = none ∧ decode 0xA300#16 = some (.ldI 0x300) ∧ decode 0xBF10#16 = some (.jpV0 0xF10) ∧
  decode 0xC00F#16 = some (.rnd 0x0 0x0F) ∧ decode 0xD012#16 = some (.drw 0x0 0x1 0x2) ∧
  decode 0xE09E#16 = some (.skp 0x0) ∧ decode 0xE09F#16 = none ∧ decode 0xF007#16 = some (.ldVxDt 0x0) ∧
  decode 0xF008#16 = none ∧ decode 0xF0FF#16 = none ∧ decode 0xF30A#16 = some (.ldVxK 0x3) ∧
  decode 0xFF65#16 = some (.ldVxI 0xF)

/-- Every instruction that has an encoding is read back from it, whatever its operands (30_encoding.md R71, R72,
R75). -/
def Obligations.DecodeOfEncodeIsTheInstruction : Prop :=
  ∀ i : Instr, i.wf = true → decode (encode i) = some i

/-- A word that decodes is the encoding of the instruction it decodes to, so each word has one meaning and no bit
of it is dropped (30_encoding.md R75, R83). -/
def Obligations.DecodedWordIsItsEncoding : Prop :=
  ∀ (w : Word) (i : Instr), decode w = some i → i.wf = true ∧ encode i = w

/-- The Unknown words are exactly those of 30_encoding.md R75 to R81. -/
def Obligations.UnknownWordsAreExactlyThese : Prop :=
  ∀ w : Word, decode w = none ↔
    (w = 0x0000#16 ∨
      (w.toNat / 4096 = 0x5 ∧ w.toNat % 16 ≠ 0) ∨
      (w.toNat / 4096 = 0x8 ∧ w.toNat % 16 ∉ [0, 1, 2, 3, 4, 5, 6, 7, 0xE]) ∨
      (w.toNat / 4096 = 0x9 ∧ w.toNat % 16 ≠ 0) ∨
      (w.toNat / 4096 = 0xE ∧ w.toNat % 256 ∉ [0x9E, 0xA1]) ∨
      (w.toNat / 4096 = 0xF ∧ w.toNat % 256 ∉ [0x07, 0x0A, 0x15, 0x18, 0x1E, 0x29, 0x33, 0x55, 0x65]))

/-! The cycle -/

/-- A step of a core in RUN performs the instruction that the two bytes at PC decode to, the byte at PC being the
more significant one, and nothing is added around it (20_memory.md R52, 40_control_flow.md R100). -/
def Obligations.StepRunsTheDecodedInstruction : Prop :=
  ∀ (s : State) (i : Instr), s.initialised = true → s.nextOp = .step → s.run = .run →
    decode (wordOfBytes (s.memRead s.pc.toNat) (s.memRead (s.pc.toNat + 1))) = some i →
    step s = exec i s.taken

/-- A step of a core in RUN whose word is Unknown halts it with UnknownOpcode and that word, and changes nothing
else (40_control_flow.md R100, 60_exceptions.md R212). -/
def Obligations.UnknownWordHaltsTheCore : Prop :=
  ∀ (s : State) (w : Word), s.initialised = true → s.nextOp = .step → s.run = .run →
    w = wordOfBytes (s.memRead s.pc.toNat) (s.memRead (s.pc.toNat + 1)) → decode w = none →
    step s = .next { s.taken with run := .halted .unknownOpcode w, stepResult := some (.fault .unknownOpcode) }

/-! Control transfer -/

/-- R102: SYS advances PC and changes nothing else; 0x0000 is not SYS. -/
def Obligations.SysOnlyAdvancesPc : Prop :=
  decode 0x0000#16 = none ∧ ∀ (nnn : Addr) (s : State),
    (nnn ≠ 0x000#12 → nnn ≠ 0x0E0#12 → nnn ≠ 0x0EE#12 → decode (fmtNNN 0x0 nnn) = some (.sys nnn)) ∧
    ∃ t, exec (.sys nnn) s = .next t ∧ t.pc.toNat = (s.pc.toNat + 2) % 4096 ∧ t.stepResult = some .executed ∧
      t = { s with pc := t.pc, stepResult := t.stepResult } ∧ ∀ a, t.memRead a = s.memRead a

/-- R103: RET takes PC from the stack, and on an empty stack halts with StackUnderflow and changes nothing else. -/
def Obligations.RetPopsThePc : Prop :=
  decode 0x00EE#16 = some .ret ∧
  (∀ (s : State) (a : Addr) (rest : List Addr), s.stack = a :: rest →
    ∃ t, exec .ret s = .next t ∧ t.pc.toNat = a.toNat ∧ t.stack = rest ∧ t.stepResult = some .executed ∧
      t = { s with pc := t.pc, stack := rest, stepResult := t.stepResult } ∧ ∀ a, t.memRead a = s.memRead a) ∧
  (∀ s : State, s.stack = [] →
    exec .ret s =
      .next { s with run := .halted .stackUnderflow 0x00EE#16, stepResult := some (.fault .stackUnderflow) })

/-- R104 and R110: JP sets PC to NNN, JP.V0 to (V[0] + NNN) mod 4096; nothing else changes. -/
def Obligations.JumpsSetPc : Prop :=
  ∀ (nnn : Addr) (s : State),
    decode (fmtNNN 0x1 nnn) = some (.jp nnn) ∧ decode (fmtNNN 0xB nnn) = some (.jpV0 nnn) ∧
    (∃ t, exec (.jp nnn) s = .next t ∧ t.pc.toNat = nnn.toNat ∧ t.stepResult = some .executed ∧
      t = { s with pc := t.pc, stepResult := t.stepResult } ∧ ∀ a, t.memRead a = s.memRead a) ∧
    (∃ t, exec (.jpV0 nnn) s = .next t ∧ t.pc.toNat = ((s.reg 0x0#4).toNat + nnn.toNat) % 4096 ∧
      t.stepResult = some .executed ∧ t = { s with pc := t.pc, stepResult := t.stepResult } ∧
      ∀ a, t.memRead a = s.memRead a)

/-- R105: CALL pushes the address of the next instruction and jumps, and RET then comes back to that address and to the
same stack; on a full stack CALL halts with StackOverflow and changes nothing else. -/
def Obligations.CallPushesTheReturnAddress : Prop :=
  ∀ (nnn : Addr) (s : State),
    decode (fmtNNN 0x2 nnn) = some (.call nnn) ∧
    (s.params.stackLimit ≠ some s.stack.length →
      ∃ t ret, exec (.call nnn) s = .next t ∧ t.pc.toNat = nnn.toNat ∧ t.stack = ret :: s.stack ∧
        ret.toNat = (s.pc.toNat + 2) % 4096 ∧ t.stepResult = some .executed ∧
        t = { s with pc := t.pc, stack := ret :: s.stack, stepResult := t.stepResult } ∧
        (∀ a, t.memRead a = s.memRead a) ∧
        ∃ u, exec .ret t = .next u ∧ u.pc.toNat = (s.pc.toNat + 2) % 4096 ∧ u.stack = s.stack) ∧
    (s.params.stackLimit = some s.stack.length →
      exec (.call nnn) s =
        .next { s with run := .halted .stackOverflow (fmtNNN 0x2 nnn), stepResult := some (.fault .stackOverflow) })

/-- R106 to R109: the four skips compare as the rule says, advance PC by 4 or 2, and change nothing else. -/
def Obligations.SkipsCompareAndAdvance : Prop :=
  ∀ (x y : RegIdx) (nn : Byte) (s : State),
    decode (fmtXNN 0x3 x nn) = some (.seImm x nn) ∧ decode (fmtXNN 0x4 x nn) = some (.sneImm x nn) ∧
    decode (fmtXYN 0x5 x y 0x0) = some (.seReg x y) ∧ decode (fmtXYN 0x9 x y 0x0) = some (.sneReg x y) ∧
    (∀ n : Nibble, n ≠ 0x0#4 → decode (fmtXYN 0x5 x y n) = none ∧ decode (fmtXYN 0x9 x y n) = none) ∧
    ∀ (i : Instr) (skips : Prop),
      (i = .seImm x nn ∧ (skips ↔ s.reg x = nn)) ∨ (i = .sneImm x nn ∧ (skips ↔ s.reg x ≠ nn)) ∨
      (i = .seReg x y ∧ (skips ↔ s.reg x = s.reg y)) ∨ (i = .sneReg x y ∧ (skips ↔ s.reg x ≠ s.reg y)) →
      ∃ t, exec i s = .next t ∧ (skips → t.pc.toNat = (s.pc.toNat + 4) % 4096) ∧
        (¬skips → t.pc.toNat = (s.pc.toNat + 2) % 4096) ∧ t.stepResult = some .executed ∧
        t = { s with pc := t.pc, stepResult := t.stepResult } ∧ ∀ a, t.memRead a = s.memRead a

/-! Registers and the ALU -/

/-- R123 to R125: LD.imm, ADD.imm and LD.reg write V[X] and no flag. -/
def Obligations.LoadsAndAddImmediateWriteOnlyVx : Prop :=
  ∀ (x y : RegIdx) (nn : Byte) (s : State),
    decode (fmtXNN 0x6 x nn) = some (.ldImm x nn) ∧ decode (fmtXNN 0x7 x nn) = some (.addImm x nn) ∧
    decode (fmtXYN 0x8 x y 0x0) = some (.ldReg x y) ∧
    ∀ (i : Instr) (r : Nat),
      (i = .ldImm x nn ∧ r = nn.toNat) ∨ (i = .addImm x nn ∧ r = ((s.reg x).toNat + nn.toNat) % 256) ∨
      (i = .ldReg x y ∧ r = (s.reg y).toNat) →
      ∃ t, exec i s = .next t ∧ (t.reg x).toNat = r ∧ (∀ z, z ≠ x → t.reg z = s.reg z) ∧
        t.pc.toNat = (s.pc.toNat + 2) % 4096 ∧ t.stepResult = some .executed ∧
        t = { s with v := t.v, pc := t.pc, stepResult := t.stepResult } ∧ ∀ a, t.memRead a = s.memRead a

/-- R126 to R128: OR, AND and XOR write V[X] bit by bit and leave VF alone unless X = 0xF. -/
def Obligations.LogicWritesOnlyVx : Prop :=
  ∀ (x y : RegIdx) (s : State),
    decode (fmtXYN 0x8 x y 0x1) = some (.orReg x y) ∧ decode (fmtXYN 0x8 x y 0x2) = some (.andReg x y) ∧
    decode (fmtXYN 0x8 x y 0x3) = some (.xorReg x y) ∧
    ∀ (i : Instr) (f : Bool → Bool → Bool),
      (i = .orReg x y ∧ f = or) ∨ (i = .andReg x y ∧ f = and) ∨ (i = .xorReg x y ∧ f = xor) →
      ∃ t, exec i s = .next t ∧
        (∀ k, k < 8 → (t.reg x).getLsbD k = f ((s.reg x).getLsbD k) ((s.reg y).getLsbD k)) ∧
        (∀ z, z ≠ x → t.reg z = s.reg z) ∧ t.pc.toNat = (s.pc.toNat + 2) % 4096 ∧
        t.stepResult = some .executed ∧ t = { s with v := t.v, pc := t.pc, stepResult := t.stepResult } ∧
        ∀ a, t.memRead a = s.memRead a

/-- R129, R130 and R132, with the order of R122: ADD.reg, SUB and SUBN write V[X] mod 256 and then VF, the carry or
the inverted borrow, from operands read before any write; with X = 0xF VF holds the flag. -/
def Obligations.AddAndSubtractWriteVxThenVf : Prop :=
  ∀ (x y : RegIdx) (s : State),
    decode (fmtXYN 0x8 x y 0x4) = some (.addReg x y) ∧ decode (fmtXYN 0x8 x y 0x5) = some (.sub x y) ∧
    decode (fmtXYN 0x8 x y 0x7) = some (.subn x y) ∧
    ∀ (i : Instr) (r : Int) (flag : Prop),
      (i = .addReg x y ∧ r = (s.reg x).toNat + (s.reg y).toNat ∧ (flag ↔ (s.reg x).toNat + (s.reg y).toNat > 255)) ∨
      (i = .sub x y ∧ r = ((s.reg x).toNat : Int) - (s.reg y).toNat ∧ (flag ↔ (s.reg x).toNat ≥ (s.reg y).toNat)) ∨
      (i = .subn x y ∧ r = ((s.reg y).toNat : Int) - (s.reg x).toNat ∧ (flag ↔ (s.reg y).toNat ≥ (s.reg x).toNat)) →
      ∃ t, exec i s = .next t ∧ (x ≠ 0xF#4 → ((t.reg x).toNat : Int) = r % 256) ∧
        (flag → t.reg 0xF#4 = 1#8) ∧ (¬flag → t.reg 0xF#4 = 0#8) ∧ (∀ z, z ≠ x → z ≠ 0xF#4 → t.reg z = s.reg z) ∧
        t.pc.toNat = (s.pc.toNat + 2) % 4096 ∧ t.stepResult = some .executed ∧
        t = { s with v := t.v, pc := t.pc, stepResult := t.stepResult } ∧ ∀ a, t.memRead a = s.memRead a

/-- R131 and R133, with the order of R122: SHR and SHL shift V[X] by one bit, V[Y] playing no part, and VF holds the
bit shifted out; with X = 0xF VF holds that bit. -/
def Obligations.ShiftsWriteVxThenVf : Prop :=
  ∀ (x y : RegIdx) (s : State),
    decode (fmtXYN 0x8 x y 0x6) = some (.shr x y) ∧ decode (fmtXYN 0x8 x y 0xE) = some (.shl x y) ∧
    ∀ (i : Instr) (r out : Nat),
      (i = .shr x y ∧ r = (s.reg x).toNat / 2 ∧ out = (s.reg x).toNat % 2) ∨
      (i = .shl x y ∧ r = (s.reg x).toNat * 2 % 256 ∧ out = (s.reg x).toNat / 128) →
      ∃ t, exec i s = .next t ∧ (x ≠ 0xF#4 → (t.reg x).toNat = r) ∧ (t.reg 0xF#4).toNat = out ∧
        (∀ z, z ≠ x → z ≠ 0xF#4 → t.reg z = s.reg z) ∧
        t.pc.toNat = (s.pc.toNat + 2) % 4096 ∧ t.stepResult = some .executed ∧
        t = { s with v := t.v, pc := t.pc, stepResult := t.stepResult } ∧ ∀ a, t.memRead a = s.memRead a

/-- R134: RND writes the next free byte ANDed with NN, and each execution draws one new byte. It holds for every
value of Config.rand8 and of the counter; that the draws are counted in a field is the model's form, log entry 4. -/
def Obligations.RndMasksOneFreeByte : Prop :=
  ∀ (x : RegIdx) (nn : Byte) (s : State),
    decode (fmtXNN 0xC x nn) = some (.rnd x nn) ∧
    ∃ t, exec (.rnd x nn) s = .next t ∧ t.reg x = nn &&& Config.rand8 s.draws ∧ t.draws = s.draws + 1 ∧
      (nn = 0#8 → t.reg x = 0#8) ∧ (∀ k, nn.getLsbD k = false → (t.reg x).getLsbD k = false) ∧
      (∀ z, z ≠ x → t.reg z = s.reg z) ∧
      t.pc.toNat = (s.pc.toNat + 2) % 4096 ∧ t.stepResult = some .executed ∧
      t = { s with v := t.v, draws := t.draws, pc := t.pc, stepResult := t.stepResult } ∧
      ∀ a, t.memRead a = s.memRead a

/-! The index register and memory -/

/-- R150 to R152: LD.I, ADD.I and LD.F write I, 16 bits wide, and no register, VF included. -/
def Obligations.IndexInstructionsWriteOnlyI : Prop :=
  ∀ (x : RegIdx) (nnn : Addr) (s : State),
    decode (fmtNNN 0xA nnn) = some (.ldI nnn) ∧ decode (fmtXNN 0xF x 0x1E) = some (.addI x) ∧
    decode (fmtXNN 0xF x 0x29) = some (.ldF x) ∧
    ∀ (i : Instr) (r : Nat),
      (i = .ldI nnn ∧ r = nnn.toNat) ∨ (i = .addI x ∧ r = (s.i.toNat + (s.reg x).toNat) % 65536) ∨
      (i = .ldF x ∧ r = (s.reg x).toNat * 5) →
      ∃ t, exec i s = .next t ∧ t.i.toNat = r ∧ t.pc.toNat = (s.pc.toNat + 2) % 4096 ∧
        t.stepResult = some .executed ∧ t = { s with i := t.i, pc := t.pc, stepResult := t.stepResult } ∧
        ∀ a, t.memRead a = s.memRead a

/-- R153: LD.B writes the three decimal digits of V[X] to the cells of I, I + 1 and I + 2, each mod 4096, and no
other cell, register or I. -/
def Obligations.BcdWritesThreeDigits : Prop :=
  ∀ (x : RegIdx) (s : State),
    decode (fmtXNN 0xF x 0x33) = some (.ldB x) ∧
    ∃ t, exec (.ldB x) s = .next t ∧
      (t.memRead s.i.toNat).toNat = (s.reg x).toNat / 100 ∧
      (t.memRead (s.i.toNat + 1)).toNat = (s.reg x).toNat / 10 % 10 ∧
      (t.memRead (s.i.toNat + 2)).toNat = (s.reg x).toNat % 10 ∧
      (∀ a, (∀ k, k < 3 → cellOf a ≠ cellOf (s.i.toNat + k)) → t.memRead a = s.memRead a) ∧
      t.pc.toNat = (s.pc.toNat + 2) % 4096 ∧ t.stepResult = some .executed ∧
      t = { s with mem := t.mem, pc := t.pc, stepResult := t.stepResult }

/-- R154: ST.I stores V[0..X] to the cells of I, I + 1, ..., I + X, each mod 4096, and changes no other cell, no
register and not I. -/
def Obligations.StoreBlockWritesRegisters : Prop :=
  ∀ (x : RegIdx) (s : State),
    decode (fmtXNN 0xF x 0x55) = some (.stI x) ∧
    ∃ t, exec (.stI x) s = .next t ∧
      (∀ z : RegIdx, z.toNat ≤ x.toNat → t.memRead (s.i.toNat + z.toNat) = s.reg z) ∧
      (∀ a, (∀ k, k ≤ x.toNat → cellOf a ≠ cellOf (s.i.toNat + k)) → t.memRead a = s.memRead a) ∧
      t.pc.toNat = (s.pc.toNat + 2) % 4096 ∧ t.stepResult = some .executed ∧
      t = { s with mem := t.mem, pc := t.pc, stepResult := t.stepResult }

/-- R155: LD.Vx.I loads V[0..X] from the cells of I, I + 1, ..., I + X, each mod 4096, and changes no other
register, no memory and not I. -/
def Obligations.LoadBlockReadsRegisters : Prop :=
  ∀ (x : RegIdx) (s : State),
    decode (fmtXNN 0xF x 0x65) = some (.ldVxI x) ∧
    ∃ t, exec (.ldVxI x) s = .next t ∧
      (∀ z : RegIdx, z.toNat ≤ x.toNat → t.reg z = s.memRead (s.i.toNat + z.toNat)) ∧
      (∀ z : RegIdx, x.toNat < z.toNat → t.reg z = s.reg z) ∧
      t.pc.toNat = (s.pc.toNat + 2) % 4096 ∧ t.stepResult = some .executed ∧
      t = { s with v := t.v, pc := t.pc, stepResult := t.stepResult } ∧ ∀ a, t.memRead a = s.memRead a

/-- A store over the next instruction is seen by the next fetch, with nothing between (20_memory.md R63). -/
def Obligations.StoredWordIsFetchedNext : Prop :=
  ∀ (x : RegIdx) (k : Nat) (s : State), k + 1 ≤ x.toNat → cellOf (s.pc.toNat + 2) = cellOf (s.i.toNat + k) →
    ∃ t, exec (.stI x) s = .next t ∧ t.fetchWord = wordOfBytes (s.regAt k) (s.regAt (k + 1))

/-- Two states that differ in bits 15-12 of I only stay so under every step (10_state.md R27). -/
def Obligations.HighBitsOfIChangeNoEffect : Prop :=
  ∀ s t : State, s.initialised = true → s.sameButHighI t → agreeButHighI (step s) (step t)

/-! The display -/

/-- R170: CLS makes every pixel false, raises frame_ready, and leaves VF and all else alone. That pending
events are counted is the model's form, log entry 12. -/
def Obligations.ClsClearsTheFramebuffer : Prop :=
  decode 0x00E0#16 = some .cls ∧ ∀ s : State,
    ∃ t, exec .cls s = .next t ∧ (∀ c r, t.pix c r = false) ∧
      t.fb.length = s.params.displayW * s.params.displayH ∧ t.frameReady = s.frameReady + 1 ∧
      t.pc.toNat = (s.pc.toNat + 2) % 4096 ∧ t.stepResult = some .executed ∧
      t = { s with fb := t.fb, frameReady := t.frameReady, pc := t.pc, stepResult := t.stepResult } ∧
      ∀ a, t.memRead a = s.memRead a

/-- R171 and R174: DRW toggles the cells of the sprite's set bits, from coordinates read before VF is written; VF
tells whether some toggle, in order, turned a set pixel off; frame_ready is raised. The framebuffer's size is the
invariant's, and the drawing does not fall under R172's fault. That pending events are counted is the model's form, log
entry 12. -/
def Obligations.DrwTogglesTheSprite : Prop :=
  ∀ (x y : RegIdx) (n : Nibble) (s : State) (cells : List (Nat × Nat)),
    s.params.wf → s.coherent → ¬s.drawsPastLastRow (s.reg y).toNat n.toNat →
    cells = s.spriteCells (s.reg x).toNat (s.reg y).toNat n.toNat →
    decode (fmtXYN 0xD x y n) = some (.drw x y n) ∧
    ∃ t, exec (.drw x y n) s = .next t ∧
      (∀ c r, c < s.params.displayW → r < s.params.displayH → t.pix c r = s.pixAfter cells c r) ∧
      t.fb.length = s.fb.length ∧
      (s.someTurnedOff cells → t.reg 0xF#4 = 1#8) ∧ (¬s.someTurnedOff cells → t.reg 0xF#4 = 0#8) ∧
      (∀ z, z ≠ 0xF#4 → t.reg z = s.reg z) ∧ t.frameReady = s.frameReady + 1 ∧
      t.pc.toNat = (s.pc.toNat + 2) % 4096 ∧ t.stepResult = some .executed ∧
      t = { s with v := t.v, fb := t.fb, frameReady := t.frameReady, pc := t.pc, stepResult := t.stepResult } ∧
      ∀ a, t.memRead a = s.memRead a

/-- R172: DRW takes the fault DrawRowOutOfRange, with no other effect, exactly when ROW_WRAP = lineage and a row
with a set bit lies past the last framebuffer row. -/
def Obligations.DrwFaultsPastTheLastRow : Prop :=
  ∀ (x y : RegIdx) (n : Nibble) (s t : State), exec (.drw x y n) s = .next t →
    (s.drawsPastLastRow (s.reg y).toNat n.toNat →
      t = { s with run := .halted .drawRowOutOfRange (fmtXYN 0xD x y n),
                   stepResult := some (.fault .drawRowOutOfRange) }) ∧
    (¬s.drawsPastLastRow (s.reg y).toNat n.toNat → t.stepResult = some .executed)

/-- R173, first sentence, and vector S5 of 95_test_vectors.md: a second draw of the same sprite at the same place
restores the framebuffer exactly, and where no cell is toggled twice in one draw its VF is 1 iff the first draw left
some pixel of the sprite set. X and Y are not 0xF, since the first draw writes VF. (R173's further sentence, VF = 1 iff
the sprite has a set bit, holds only where the first draw found those pixels clear; log entry 19.) -/
def Obligations.SecondDrawRestoresThePixels : Prop :=
  ∀ (x y : RegIdx) (n : Nibble) (s t : State) (cells : List (Nat × Nat)), x ≠ 0xF#4 → y ≠ 0xF#4 → s.params.wf → s.coherent →
    ¬s.drawsPastLastRow (s.reg y).toNat n.toNat → exec (.drw x y n) s = .next t →
    cells = s.spriteCells (s.reg x).toNat (s.reg y).toNat n.toNat →
    ∃ u, exec (.drw x y n) t = .next u ∧ u.fb = s.fb ∧
      (cells.Nodup → (u.reg 0xF#4 = 1#8 ↔ ∃ p ∈ cells, t.pix p.1 p.2 = true))

/-! Keys and timers -/

/-- R190 to R192: SKP and SKNP test the key V[X] mod 16 and change nothing but PC. -/
def Obligations.KeySkipsTestTheKey : Prop :=
  ∀ (x : RegIdx) (k : KeyIdx) (s : State), k.toNat = (s.reg x).toNat % 16 →
    decode (fmtXNN 0xE x 0x9E) = some (.skp x) ∧ decode (fmtXNN 0xE x 0xA1) = some (.sknp x) ∧
    ∀ (i : Instr) (skips : Bool),
      (i = .skp x ∧ skips = s.keys.down k) ∨ (i = .sknp x ∧ skips = !s.keys.down k) →
      ∃ t, exec i s = .next t ∧
        t.pc.toNat = (s.pc.toNat + (if skips = true then 4 else 2)) % 4096 ∧ t.stepResult = some .executed ∧
        t = { s with pc := t.pc, stepResult := t.stepResult } ∧ ∀ a, t.memRead a = s.memRead a

/-- R193: LD.Vx.DT reads the delay timer into V[X]. -/
def Obligations.LdVxDtReadsTheTimer : Prop :=
  ∀ (x : RegIdx) (s : State),
    decode (fmtXNN 0xF x 0x07) = some (.ldVxDt x) ∧
    ∃ t, exec (.ldVxDt x) s = .next t ∧ t.reg x = s.dt ∧ (∀ z, z ≠ x → t.reg z = s.reg z) ∧
      t.pc.toNat = (s.pc.toNat + 2) % 4096 ∧ t.stepResult = some .executed ∧
      t = { s with v := t.v, pc := t.pc, stepResult := t.stepResult } ∧ ∀ a, t.memRead a = s.memRead a

/-- R197 and R198: LD.DT and LD.ST write their timer and nothing else: no event, and sound_active follows ST. -/
def Obligations.TimerWritesRaiseNoEvent : Prop :=
  ∀ (x : RegIdx) (s : State),
    decode (fmtXNN 0xF x 0x15) = some (.ldDt x) ∧ decode (fmtXNN 0xF x 0x18) = some (.ldSt x) ∧
    (∃ t, exec (.ldDt x) s = .next t ∧ t.dt = s.reg x ∧ t.pc.toNat = (s.pc.toNat + 2) % 4096 ∧
      t.stepResult = some .executed ∧ t = { s with dt := t.dt, pc := t.pc, stepResult := t.stepResult } ∧
      ∀ a, t.memRead a = s.memRead a) ∧
    (∃ t, exec (.ldSt x) s = .next t ∧ t.st = s.reg x ∧ (t.soundActive = true ↔ s.reg x ≠ 0#8) ∧
      t.pc.toNat = (s.pc.toNat + 2) % 4096 ∧
      t.stepResult = some .executed ∧ t = { s with st := t.st, pc := t.pc, stepResult := t.stepResult } ∧
      ∀ a, t.memRead a = s.memRead a)

/-- R194 (and R196 for the key chosen): the first step of FX0A waits, remembering the key vector, unless
FX0A_TRIGGER = level and a key is pressed; then V[X] receives a pressed key, the lowest one unless
FX0A_KEY_CHOICE = any. -/
def Obligations.WaitForKeyFirstStep : Prop :=
  ∀ (x : RegIdx) (s : State),
    decode (fmtXNN 0xF x 0x0A) = some (.ldVxK x) ∧
    ((s.params.fx0aTrigger = .edge ∨ ∀ k, s.keys.down k = false) →
      exec (.ldVxK x) s = .next { s with run := .waitKey x s.keys, stepResult := some .waiting }) ∧
    (s.params.fx0aTrigger = .level → (∃ k, s.keys.down k = true) →
      ∃ t k, exec (.ldVxK x) s = .next t ∧ s.keys.down k = true ∧ (t.reg x).toNat = k.toNat ∧
        (s.params.fx0aKeyChoice = .lowest → ∀ j, s.keys.down j = true → k.toNat ≤ j.toNat) ∧
        (∀ z, z ≠ x → t.reg z = s.reg z) ∧
        t.pc.toNat = (s.pc.toNat + 2) % 4096 ∧ t.stepResult = some .executed ∧
        t = { s with v := t.v, pc := t.pc, draws := t.draws, stepResult := t.stepResult } ∧
        ∀ a, t.memRead a = s.memRead a)

/-- R195 and R196: a step in WAIT_KEY(x, prev) polls the keys: it keeps waiting with the new sample when no key
qualifies; else V[x] receives a qualifying key, the lowest one unless FX0A_KEY_CHOICE = any, PC advances and the
core runs again. -/
def Obligations.WaitForKeyPoll : Prop :=
  ∀ (x : RegIdx) (prev : Keys) (s : State) (qualifies : KeyIdx → Prop),
    s.initialised = true → s.nextOp = .step → s.run = .waitKey x prev →
    (∀ k, qualifies k ↔ s.keys.down k = true ∧ (s.params.fx0aTrigger = .edge → prev.down k = false)) →
    ((∀ k, ¬qualifies k) →
      step s = .next { s.taken with run := .waitKey x s.keys, stepResult := some .waiting }) ∧
    ((∃ k, qualifies k) →
      ∃ t k, step s = .next t ∧ qualifies k ∧ (t.reg x).toNat = k.toNat ∧
        (s.params.fx0aKeyChoice = .lowest → ∀ j, qualifies j → k.toNat ≤ j.toNat) ∧
        (∀ z, z ≠ x → t.reg z = s.reg z) ∧
        t.pc.toNat = (s.pc.toNat + 2) % 4096 ∧ t.run = .run ∧ t.stepResult = some .executed ∧
        t = { s.taken with v := t.v, pc := t.pc, draws := t.draws, run := .run, stepResult := t.stepResult })

/-- R222: a tick, in every run state, decrements each timer that is not 0, raises the expiry event of one that
thereby reaches 0, and writes nothing else. That pending events are counted is the model's form, log entry 12. -/
def Obligations.TickDecrementsTheTimers : Prop :=
  ∀ s : State, s.initialised = true → s.nextOp = .tick →
    ∃ t, step s = .next t ∧ t.dt.toNat = s.dt.toNat - 1 ∧ t.st.toNat = s.st.toNat - 1 ∧
      (s.dt.toNat = 1 → t.dtExpired = s.dtExpired + 1) ∧ (s.dt.toNat ≠ 1 → t.dtExpired = s.dtExpired) ∧
      (s.st.toNat = 1 → t.stExpired = s.stExpired + 1) ∧ (s.st.toNat ≠ 1 → t.stExpired = s.stExpired) ∧
      (t.soundActive = true ↔ t.st ≠ 0#8) ∧
      t = { s.taken with dt := t.dt, st := t.st, dtExpired := t.dtExpired, stExpired := t.stExpired }

/-- R224, for every start value and every number of ticks: a timer saturates at 0, and its expiry event is raised
once, by the tick that takes it to 0. That pending events are counted is the model's form, log entry 12. -/
def Obligations.TicksSaturateAtZero : Prop :=
  ∀ (n : Nat) (s t : State), t = State.tickTimers^[n] s →
    t.dt.toNat = s.dt.toNat - n ∧ t.st.toNat = s.st.toNat - n ∧
    t.dtExpired = s.dtExpired + (if 0 < s.dt.toNat ∧ s.dt.toNat ≤ n then 1 else 0) ∧
    t.stExpired = s.stExpired + (if 0 < s.st.toNat ∧ s.st.toNat ≤ n then 1 else 0) ∧
    t = { s with dt := t.dt, st := t.st, dtExpired := t.dtExpired, stExpired := t.stExpired }

/-- R223: FX15 and then a tick give DT = V[X] - 1, or 0 if V[X] = 0; a tick and then FX15 give DT = V[X]. -/
def Obligations.TickAndTimerWriteAreSerialised : Prop :=
  ∀ (x : RegIdx) (s : State),
    (∃ t, exec (.ldDt x) s = .next t ∧ t.tickTimers.dt.toNat = (s.reg x).toNat - 1) ∧
    (∃ t, exec (.ldDt x) s.tickTimers = .next t ∧ t.dt = s.reg x)

/-! Faults, resume, reset and load -/

/-- R212: whatever step of a core in RUN ends in a fault, the state is the state before it but for the run state
HALTED(code, w), w being the word fetched, and step_result; and no step of a core in RUN halts it otherwise. -/
def Obligations.FaultsArePrecise : Prop :=
  ∀ (s t : State) (c : Fault), s.initialised = true → s.nextOp = .step → s.run = .run → step s = .next t →
    ((t.stepResult = some (.fault c) ↔ ∃ w, t.run = .halted c w) ∧
      (t.stepResult = some (.fault c) →
        t = { s.taken with run := .halted c s.fetchWord, stepResult := some (.fault c) }))

/-- R211 and R215: each core fault comes from its own cause, so at most one applies to a step. -/
def Obligations.FaultsHaveTheirCauses : Prop :=
  ∀ (s t : State), s.initialised = true → s.nextOp = .step → s.run = .run → step s = .next t →
    (t.stepResult = some (.fault .unknownOpcode) ↔ decode s.fetchWord = none) ∧
    (t.stepResult = some (.fault .stackOverflow) ↔
      (∃ nnn, decode s.fetchWord = some (.call nnn)) ∧ s.params.stackLimit = some s.stack.length) ∧
    (t.stepResult = some (.fault .stackUnderflow) ↔ decode s.fetchWord = some .ret ∧ s.stack = []) ∧
    (t.stepResult = some (.fault .drawRowOutOfRange) ↔
      ∃ x y n, decode s.fetchWord = some (.drw x y n) ∧ s.drawsPastLastRow (s.reg y).toNat n.toNat)

/-- A halted core's step has no effect (60_exceptions.md R212 item 3; 92_eei_decisions.md D5). That step answers the
same state rather than none is the model's reading, log entry 9. -/
def Obligations.HaltedCoreStaysAsItIs : Prop :=
  ∀ (s : State) (c : Fault) (w : Word), s.initialised = true → s.nextOp = .step → s.run = .halted c w →
    step s = .next s.taken

/-- R216: resume leaves HALTED, for skip with PC advanced by 2, and has no effect in RUN or WAIT_KEY. -/
def Obligations.ResumeLeavesHalted : Prop :=
  ∀ (s : State) (mode : ResumeMode), s.initialised = true → s.nextOp = .resume mode →
    ((∃ c w, s.run = .halted c w) →
      ∃ t, step s = .next t ∧ t.run = .run ∧ (mode = .retry → t.pc = s.pc) ∧
        (mode = .skip → t.pc.toNat = (s.pc.toNat + 2) % 4096) ∧ t = { s.taken with run := .run, pc := t.pc }) ∧
    ((¬∃ c w, s.run = .halted c w) → step s = .next s.taken)

/-- R250 and R251: reset, from any state, gives every piece of state its reset value and leaves the key vector, the
random source and the parameters alone. -/
def Obligations.ResetGivesTheResetValues : Prop :=
  ∀ s : State, s.nextOp = .reset →
    ∃ t, step s = .next t ∧ (∀ z, t.reg z = 0#8) ∧ t.i = 0#16 ∧ t.pc = 0x200#16 ∧ t.stack = [] ∧ t.dt = 0#8 ∧ t.st = 0#8 ∧
      (∀ (a : Nat) (h : a < 80), t.memRead a = s.params.fontRom[a]) ∧
      (∀ a, 80 ≤ a → a < 4096 → t.memRead a = 0#8) ∧
      (∀ c r, t.pix c r = false) ∧ t.fb.length = s.params.displayW * s.params.displayH ∧ t.run = .run ∧
      t.frameReady = 0 ∧ t.dtExpired = 0 ∧ t.stExpired = 0 ∧ t.soundActive = false ∧
      t.keys = s.keys ∧ t.draws = s.draws ∧ t.params = s.params ∧ t.initialised = true

/-- R253: load copies the image to 0x200 on when it fits, writing its cells only; an image that is too large writes
nothing. -/
def Obligations.LoadIsAllOrNothing : Prop :=
  ∀ (s : State) (bytes : List Byte), s.initialised = true → s.nextOp = .load bytes →
    (0x200 + bytes.length ≤ 0x1000 →
      ∃ t, step s = .next t ∧ t.loadResult = some .ok ∧
        (∀ (j : Nat) (h : j < bytes.length), t.memRead (0x200 + j) = bytes[j]) ∧
        (∀ a, (cellOf a < 0x200 ∨ 0x200 + bytes.length ≤ cellOf a) → t.memRead a = s.memRead a) ∧
        t = { s.taken with mem := t.mem, loadResult := some .ok }) ∧
    (0x200 + bytes.length > 0x1000 → step s = .next { s.taken with loadResult := some .imageTooLarge })

/-- R252: before the first reset a step, tick or load is refused; so is a resume, which is the model's choice (log
entry 8). -/
def Obligations.NothingRunsBeforeTheFirstReset : Prop :=
  ∀ s : State, s.initialised = false →
    (s.nextOp = .step ∨ s.nextOp = .tick ∨ (∃ bytes, s.nextOp = .load bytes) ∨ (∃ mode, s.nextOp = .resume mode)) →
    step s = .refused .beforeFirstReset

/-- The Input Source's change of the key vector changes nothing else (10_state.md R34; 60_exceptions.md R227).
That it is performed before the first reset too, where 70_reset_and_hazards.md R252 says nothing of it, is the model's
choice, log entry 8. -/
def Obligations.SetKeysChangesTheKeysOnly : Prop :=
  ∀ (s : State) (keys : Keys), s.nextOp = .setKeys keys → step s = .next { s.taken with keys := keys }

/-! Rules about the whole machine -/

/-- 10_state.md R25: the PC after every instruction, by class: an instruction that completes moves PC as its class
says, and one that waits or faults leaves it; a poll of a waiting FX0A moves PC by 2 when the wait ends. A popped
return address is an entry of 12 bits. -/
def Obligations.PcFollowsTheInstructionClass : Prop :=
  (∀ (i : Instr) (s t : State), exec i s = .next t →
    (t.stepResult = some .executed → t.pc.toNat = nextPc i s) ∧
    (t.stepResult ≠ some .executed → t.pc = s.pc)) ∧
  ∀ (x : RegIdx) (prev : Keys) (s t : State), t = s.pollKeys x prev →
    (t.stepResult = some .executed → t.pc.toNat = (s.pc.toNat + 2) % 4096) ∧
    (t.stepResult ≠ some .executed → t.pc = s.pc)

/-- 10_state.md R22 and R31: an instruction writes no register but its destinations and, if it sets the flag, VF,
and a flag is 0 or 1. -/
def Obligations.RegistersAreWrittenByTheTable : Prop :=
  ∀ (i : Instr) (s t : State), exec i s = .next t →
    (∀ z, writesReg i z = false → (setsFlag i = false ∨ z ≠ 0xF#4) → t.reg z = s.reg z) ∧
    (setsFlag i = true → t.stepResult = some .executed → t.reg 0xF#4 = 0#8 ∨ t.reg 0xF#4 = 1#8)

/-- 10_state.md R28: "Only 2NNN pushes and only 00EE pops." -/
def Obligations.OnlyCallPushesAndOnlyRetPops : Prop :=
  ∀ (i : Instr) (s t : State), exec i s = .next t →
    t.stack = s.stack ∨ (∃ nnn a, i = .call nnn ∧ t.stack = a :: s.stack) ∨ (i = .ret ∧ ∃ a, s.stack = a :: t.stack)

/-- 10_state.md R35, 20_memory.md R50 and R55: no instruction but FX33 and FX55 changes a byte of memory, none but 00E0
and DXYN changes the framebuffer or raises frame_ready, none but ANNN, FX1E and FX29 changes I, none but FX15
changes DT and none but FX18 ST. -/
def Obligations.MemoryDisplayIndexAndTimersHaveTheirWriters : Prop :=
  ∀ (i : Instr) (s t : State), exec i s = .next t →
    (storesMemory i = false → t.mem = s.mem ∧ ∀ a, t.memRead a = s.memRead a) ∧
    (writesFramebuffer i = false → t.fb = s.fb ∧ t.frameReady = s.frameReady) ∧
    (writesIndex i = false → t.i = s.i) ∧
    ((∀ x, i ≠ .ldDt x) → t.dt = s.dt) ∧ ((∀ x, i ≠ .ldSt x) → t.st = s.st)

/-- No instruction writes the key vector, the parameters, the expiry events, load's result or the schedule, and only
CXNN and FX0A draw a free value, one each (10_state.md R34, R42; 70_reset_and_hazards.md R251). The fields for
the schedule, the initialised mark, the draws and load's result are the model's form, log entries 4, 5, 6, 8 and 13. -/
def Obligations.NoInstructionWritesInputsOrParameters : Prop :=
  ∀ (i : Instr) (s t : State), exec i s = .next t →
    t.keys = s.keys ∧ t.params = s.params ∧ t.initialised = s.initialised ∧ t.dtExpired = s.dtExpired ∧
    t.stExpired = s.stExpired ∧ t.loadResult = s.loadResult ∧ t.schedule = s.schedule ∧
    (t.draws = s.draws ∨ t.draws = s.draws + 1) ∧
    ((∀ x nn, i ≠ .rnd x nn) → (∀ x, i ≠ .ldVxK x) → t.draws = s.draws)

/-- After the first reset no step of the model stops: every instruction, every Unknown word and every port transaction
has a next state. No access faults (20_memory.md R51) and every word is classified (30_encoding.md R75); that a fault
with the effects of 60_exceptions.md R212 is taken as a next state is the model's reading, log entry 10, and so is that
step() of a halted core, for which 40_control_flow.md R100 and R212 item 3 say there is no step, answers the same state,
log entry 9. -/
def Obligations.ResetMachineNeverStops : Prop :=
  (∀ (i : Instr) (s : State), ∃ t, exec i s = .next t) ∧
  ∀ s : State, s.initialised = true → ∃ t, step s = .next t ∧ t.initialised = true

/-- The invariant holds after reset. -/
def Obligations.ResetMeetsTheInvariant : Prop := State.reset.Inv

/-- The invariant is kept by every step, of either agent and of the host: PC stays within 0x000..0xFFF (10_state.md R24),
memory keeps its canonical form, the framebuffer its size, the stack its limit, and the parameters stay legal. -/
def Obligations.StepKeepsTheInvariant : Prop :=
  ∀ s t : State, s.Inv → step s = .next t → t.Inv

/-- A word placed for the next fetch is the word the next step fetches, big-endian and at any PC (20_memory.md R52);
that a program's bytes may be placed so is the model's choice, log entry 7. -/
def Obligations.PlacedWordIsRun : Prop :=
  ∀ (s : State) (w : Word) (i : Instr), decode w = some i →
    (s.withFetchWord 16 w.toNat).fetchWord = w ∧
    step (s.withFetchWord 16 w.toNat) = exec i (s.withFetchWord 16 w.toNat)

/-! Unending runs -/

/-- 00_scope.md R12, R14: every interleaving of the two agents and of the host, unending, is a run of an initialised
machine. That each transaction is offered to a step is the model's form, log entry 6, and that step() answers a state
after a fault and in HALTED too is its reading, log entries 9 and 10. -/
def Obligations.EveryInterleavingIsARun : Prop :=
  ∀ (s : State) (ops : Nat → PortOp), s.initialised = true →
    ∃ states : Nat → State, states 0 = s ∧ isRun ops states ∧ ∀ k, (states k).initialised = true

/-- In a run in which ticks keep occurring (00_scope.md R14), however instructions and host operations interleave with
them, from every point on each timer comes to 0 or the instruction that writes it is executed. That a run offers each
transaction to a step is the model's form, log entry 6. -/
def Obligations.TimersExpireIfTicksKeepOccurring : Prop :=
  ∀ (ops : Nat → PortOp) (states : Nat → State) (n : Nat), isRun ops states → ticksKeepOccurring ops →
    (∃ m, n ≤ m ∧ ((states m).dt = 0#8 ∨ ∃ x, executesAt ops states m (.ldDt x))) ∧
    (∃ m, n ≤ m ∧ ((states m).st = 0#8 ∨ ∃ x, executesAt ops states m (.ldSt x)))

/-- In a run in which instruction steps keep occurring while the core is not halted (00_scope.md R14), a wait of FX0A
with FX0A_TRIGGER = level ends if some key, not always the same one, is down at every step (44_keys_timers.md R195).
That a run offers each transaction to a step is the model's form, log entry 6. -/
def Obligations.KeyWaitEndsIfStepsKeepOccurring : Prop :=
  ∀ (ops : Nat → PortOp) (states : Nat → State) (n : Nat) (x : RegIdx) (prev : Keys), isRun ops states →
    stepsKeepOccurring ops states → (states n).run = .waitKey x prev →
    (states n).params.fx0aTrigger = .level → (∀ m, n ≤ m → ∃ k, (states m).keys.down k = true) →
    ∃ m, n < m ∧ (states m).run = .run
end

