-- ==== Sys2Proof/Laws/State.lean ====
section
/-! SUPPORT. One lemma per field per update of State, each true by rfl, so that no proof unfolds an update. The three
about PC are no simp lemmas: Laws/Ops.lean says their numbers, mod 4096. -/

namespace Sys2Proof.Machine

/-! State.setReg -/

@[simp] theorem State.setReg_params (s : State) (x : RegIdx) (b : Byte) : (s.setReg x b).params = s.params := rfl
@[simp] theorem State.setReg_initialised (s : State) (x : RegIdx) (b : Byte) : (s.setReg x b).initialised = s.initialised := rfl
@[simp] theorem State.setReg_v (s : State) (x : RegIdx) (b : Byte) : (s.setReg x b).v = s.v.set x.toNat b x.isLt := rfl
@[simp] theorem State.setReg_i (s : State) (x : RegIdx) (b : Byte) : (s.setReg x b).i = s.i := rfl
@[simp] theorem State.setReg_pc (s : State) (x : RegIdx) (b : Byte) : (s.setReg x b).pc = s.pc := rfl
@[simp] theorem State.setReg_stack (s : State) (x : RegIdx) (b : Byte) : (s.setReg x b).stack = s.stack := rfl
@[simp] theorem State.setReg_dt (s : State) (x : RegIdx) (b : Byte) : (s.setReg x b).dt = s.dt := rfl
@[simp] theorem State.setReg_st (s : State) (x : RegIdx) (b : Byte) : (s.setReg x b).st = s.st := rfl
@[simp] theorem State.setReg_mem (s : State) (x : RegIdx) (b : Byte) : (s.setReg x b).mem = s.mem := rfl
@[simp] theorem State.setReg_keys (s : State) (x : RegIdx) (b : Byte) : (s.setReg x b).keys = s.keys := rfl
@[simp] theorem State.setReg_fb (s : State) (x : RegIdx) (b : Byte) : (s.setReg x b).fb = s.fb := rfl
@[simp] theorem State.setReg_run (s : State) (x : RegIdx) (b : Byte) : (s.setReg x b).run = s.run := rfl
@[simp] theorem State.setReg_stepResult (s : State) (x : RegIdx) (b : Byte) : (s.setReg x b).stepResult = s.stepResult := rfl
@[simp] theorem State.setReg_loadResult (s : State) (x : RegIdx) (b : Byte) : (s.setReg x b).loadResult = s.loadResult := rfl
@[simp] theorem State.setReg_frameReady (s : State) (x : RegIdx) (b : Byte) : (s.setReg x b).frameReady = s.frameReady := rfl
@[simp] theorem State.setReg_dtExpired (s : State) (x : RegIdx) (b : Byte) : (s.setReg x b).dtExpired = s.dtExpired := rfl
@[simp] theorem State.setReg_stExpired (s : State) (x : RegIdx) (b : Byte) : (s.setReg x b).stExpired = s.stExpired := rfl
@[simp] theorem State.setReg_draws (s : State) (x : RegIdx) (b : Byte) : (s.setReg x b).draws = s.draws := rfl
@[simp] theorem State.setReg_schedule (s : State) (x : RegIdx) (b : Byte) : (s.setReg x b).schedule = s.schedule := rfl
@[simp] theorem State.setReg_memRead (s : State) (x : RegIdx) (b : Byte) (m : Nat) : (s.setReg x b).memRead m = s.memRead m := rfl
@[simp] theorem State.setReg_pix (s : State) (x : RegIdx) (b : Byte) (col row : Nat) : (s.setReg x b).pix col row = s.pix col row := rfl

/-! State.setI -/

@[simp] theorem State.setI_params (s : State) (a : Word) : (s.setI a).params = s.params := rfl
@[simp] theorem State.setI_initialised (s : State) (a : Word) : (s.setI a).initialised = s.initialised := rfl
@[simp] theorem State.setI_v (s : State) (a : Word) : (s.setI a).v = s.v := rfl
@[simp] theorem State.setI_i (s : State) (a : Word) : (s.setI a).i = a := rfl
@[simp] theorem State.setI_pc (s : State) (a : Word) : (s.setI a).pc = s.pc := rfl
@[simp] theorem State.setI_stack (s : State) (a : Word) : (s.setI a).stack = s.stack := rfl
@[simp] theorem State.setI_dt (s : State) (a : Word) : (s.setI a).dt = s.dt := rfl
@[simp] theorem State.setI_st (s : State) (a : Word) : (s.setI a).st = s.st := rfl
@[simp] theorem State.setI_mem (s : State) (a : Word) : (s.setI a).mem = s.mem := rfl
@[simp] theorem State.setI_keys (s : State) (a : Word) : (s.setI a).keys = s.keys := rfl
@[simp] theorem State.setI_fb (s : State) (a : Word) : (s.setI a).fb = s.fb := rfl
@[simp] theorem State.setI_run (s : State) (a : Word) : (s.setI a).run = s.run := rfl
@[simp] theorem State.setI_stepResult (s : State) (a : Word) : (s.setI a).stepResult = s.stepResult := rfl
@[simp] theorem State.setI_loadResult (s : State) (a : Word) : (s.setI a).loadResult = s.loadResult := rfl
@[simp] theorem State.setI_frameReady (s : State) (a : Word) : (s.setI a).frameReady = s.frameReady := rfl
@[simp] theorem State.setI_dtExpired (s : State) (a : Word) : (s.setI a).dtExpired = s.dtExpired := rfl
@[simp] theorem State.setI_stExpired (s : State) (a : Word) : (s.setI a).stExpired = s.stExpired := rfl
@[simp] theorem State.setI_draws (s : State) (a : Word) : (s.setI a).draws = s.draws := rfl
@[simp] theorem State.setI_schedule (s : State) (a : Word) : (s.setI a).schedule = s.schedule := rfl
@[simp] theorem State.setI_reg (s : State) (a : Word) (y : RegIdx) : (s.setI a).reg y = s.reg y := rfl
@[simp] theorem State.setI_memRead (s : State) (a : Word) (m : Nat) : (s.setI a).memRead m = s.memRead m := rfl
@[simp] theorem State.setI_pix (s : State) (a : Word) (col row : Nat) : (s.setI a).pix col row = s.pix col row := rfl

/-! State.setDt -/

@[simp] theorem State.setDt_params (s : State) (b : Byte) : (s.setDt b).params = s.params := rfl
@[simp] theorem State.setDt_initialised (s : State) (b : Byte) : (s.setDt b).initialised = s.initialised := rfl
@[simp] theorem State.setDt_v (s : State) (b : Byte) : (s.setDt b).v = s.v := rfl
@[simp] theorem State.setDt_i (s : State) (b : Byte) : (s.setDt b).i = s.i := rfl
@[simp] theorem State.setDt_pc (s : State) (b : Byte) : (s.setDt b).pc = s.pc := rfl
@[simp] theorem State.setDt_stack (s : State) (b : Byte) : (s.setDt b).stack = s.stack := rfl
@[simp] theorem State.setDt_dt (s : State) (b : Byte) : (s.setDt b).dt = b := rfl
@[simp] theorem State.setDt_st (s : State) (b : Byte) : (s.setDt b).st = s.st := rfl
@[simp] theorem State.setDt_mem (s : State) (b : Byte) : (s.setDt b).mem = s.mem := rfl
@[simp] theorem State.setDt_keys (s : State) (b : Byte) : (s.setDt b).keys = s.keys := rfl
@[simp] theorem State.setDt_fb (s : State) (b : Byte) : (s.setDt b).fb = s.fb := rfl
@[simp] theorem State.setDt_run (s : State) (b : Byte) : (s.setDt b).run = s.run := rfl
@[simp] theorem State.setDt_stepResult (s : State) (b : Byte) : (s.setDt b).stepResult = s.stepResult := rfl
@[simp] theorem State.setDt_loadResult (s : State) (b : Byte) : (s.setDt b).loadResult = s.loadResult := rfl
@[simp] theorem State.setDt_frameReady (s : State) (b : Byte) : (s.setDt b).frameReady = s.frameReady := rfl
@[simp] theorem State.setDt_dtExpired (s : State) (b : Byte) : (s.setDt b).dtExpired = s.dtExpired := rfl
@[simp] theorem State.setDt_stExpired (s : State) (b : Byte) : (s.setDt b).stExpired = s.stExpired := rfl
@[simp] theorem State.setDt_draws (s : State) (b : Byte) : (s.setDt b).draws = s.draws := rfl
@[simp] theorem State.setDt_schedule (s : State) (b : Byte) : (s.setDt b).schedule = s.schedule := rfl
@[simp] theorem State.setDt_reg (s : State) (b : Byte) (y : RegIdx) : (s.setDt b).reg y = s.reg y := rfl
@[simp] theorem State.setDt_memRead (s : State) (b : Byte) (m : Nat) : (s.setDt b).memRead m = s.memRead m := rfl
@[simp] theorem State.setDt_pix (s : State) (b : Byte) (col row : Nat) : (s.setDt b).pix col row = s.pix col row := rfl

/-! State.setSt -/

@[simp] theorem State.setSt_params (s : State) (b : Byte) : (s.setSt b).params = s.params := rfl
@[simp] theorem State.setSt_initialised (s : State) (b : Byte) : (s.setSt b).initialised = s.initialised := rfl
@[simp] theorem State.setSt_v (s : State) (b : Byte) : (s.setSt b).v = s.v := rfl
@[simp] theorem State.setSt_i (s : State) (b : Byte) : (s.setSt b).i = s.i := rfl
@[simp] theorem State.setSt_pc (s : State) (b : Byte) : (s.setSt b).pc = s.pc := rfl
@[simp] theorem State.setSt_stack (s : State) (b : Byte) : (s.setSt b).stack = s.stack := rfl
@[simp] theorem State.setSt_dt (s : State) (b : Byte) : (s.setSt b).dt = s.dt := rfl
@[simp] theorem State.setSt_st (s : State) (b : Byte) : (s.setSt b).st = b := rfl
@[simp] theorem State.setSt_mem (s : State) (b : Byte) : (s.setSt b).mem = s.mem := rfl
@[simp] theorem State.setSt_keys (s : State) (b : Byte) : (s.setSt b).keys = s.keys := rfl
@[simp] theorem State.setSt_fb (s : State) (b : Byte) : (s.setSt b).fb = s.fb := rfl
@[simp] theorem State.setSt_run (s : State) (b : Byte) : (s.setSt b).run = s.run := rfl
@[simp] theorem State.setSt_stepResult (s : State) (b : Byte) : (s.setSt b).stepResult = s.stepResult := rfl
@[simp] theorem State.setSt_loadResult (s : State) (b : Byte) : (s.setSt b).loadResult = s.loadResult := rfl
@[simp] theorem State.setSt_frameReady (s : State) (b : Byte) : (s.setSt b).frameReady = s.frameReady := rfl
@[simp] theorem State.setSt_dtExpired (s : State) (b : Byte) : (s.setSt b).dtExpired = s.dtExpired := rfl
@[simp] theorem State.setSt_stExpired (s : State) (b : Byte) : (s.setSt b).stExpired = s.stExpired := rfl
@[simp] theorem State.setSt_draws (s : State) (b : Byte) : (s.setSt b).draws = s.draws := rfl
@[simp] theorem State.setSt_schedule (s : State) (b : Byte) : (s.setSt b).schedule = s.schedule := rfl
@[simp] theorem State.setSt_reg (s : State) (b : Byte) (y : RegIdx) : (s.setSt b).reg y = s.reg y := rfl
@[simp] theorem State.setSt_memRead (s : State) (b : Byte) (m : Nat) : (s.setSt b).memRead m = s.memRead m := rfl
@[simp] theorem State.setSt_pix (s : State) (b : Byte) (col row : Nat) : (s.setSt b).pix col row = s.pix col row := rfl

/-! State.setPc -/

@[simp] theorem State.setPc_params (s : State) (a : Nat) : (s.setPc a).params = s.params := rfl
@[simp] theorem State.setPc_initialised (s : State) (a : Nat) : (s.setPc a).initialised = s.initialised := rfl
@[simp] theorem State.setPc_v (s : State) (a : Nat) : (s.setPc a).v = s.v := rfl
@[simp] theorem State.setPc_i (s : State) (a : Nat) : (s.setPc a).i = s.i := rfl
theorem State.setPc_pc (s : State) (a : Nat) : (s.setPc a).pc = BitVec.ofNat 16 (a % 4096) := rfl
@[simp] theorem State.setPc_stack (s : State) (a : Nat) : (s.setPc a).stack = s.stack := rfl
@[simp] theorem State.setPc_dt (s : State) (a : Nat) : (s.setPc a).dt = s.dt := rfl
@[simp] theorem State.setPc_st (s : State) (a : Nat) : (s.setPc a).st = s.st := rfl
@[simp] theorem State.setPc_mem (s : State) (a : Nat) : (s.setPc a).mem = s.mem := rfl
@[simp] theorem State.setPc_keys (s : State) (a : Nat) : (s.setPc a).keys = s.keys := rfl
@[simp] theorem State.setPc_fb (s : State) (a : Nat) : (s.setPc a).fb = s.fb := rfl
@[simp] theorem State.setPc_run (s : State) (a : Nat) : (s.setPc a).run = s.run := rfl
@[simp] theorem State.setPc_stepResult (s : State) (a : Nat) : (s.setPc a).stepResult = s.stepResult := rfl
@[simp] theorem State.setPc_loadResult (s : State) (a : Nat) : (s.setPc a).loadResult = s.loadResult := rfl
@[simp] theorem State.setPc_frameReady (s : State) (a : Nat) : (s.setPc a).frameReady = s.frameReady := rfl
@[simp] theorem State.setPc_dtExpired (s : State) (a : Nat) : (s.setPc a).dtExpired = s.dtExpired := rfl
@[simp] theorem State.setPc_stExpired (s : State) (a : Nat) : (s.setPc a).stExpired = s.stExpired := rfl
@[simp] theorem State.setPc_draws (s : State) (a : Nat) : (s.setPc a).draws = s.draws := rfl
@[simp] theorem State.setPc_schedule (s : State) (a : Nat) : (s.setPc a).schedule = s.schedule := rfl
@[simp] theorem State.setPc_reg (s : State) (a : Nat) (y : RegIdx) : (s.setPc a).reg y = s.reg y := rfl
@[simp] theorem State.setPc_memRead (s : State) (a : Nat) (m : Nat) : (s.setPc a).memRead m = s.memRead m := rfl
@[simp] theorem State.setPc_pix (s : State) (a : Nat) (col row : Nat) : (s.setPc a).pix col row = s.pix col row := rfl

/-! State.setStepResult -/

@[simp] theorem State.setStepResult_params (s : State) (r : StepResult) : (s.setStepResult r).params = s.params := rfl
@[simp] theorem State.setStepResult_initialised (s : State) (r : StepResult) : (s.setStepResult r).initialised = s.initialised := rfl
@[simp] theorem State.setStepResult_v (s : State) (r : StepResult) : (s.setStepResult r).v = s.v := rfl
@[simp] theorem State.setStepResult_i (s : State) (r : StepResult) : (s.setStepResult r).i = s.i := rfl
@[simp] theorem State.setStepResult_pc (s : State) (r : StepResult) : (s.setStepResult r).pc = s.pc := rfl
@[simp] theorem State.setStepResult_stack (s : State) (r : StepResult) : (s.setStepResult r).stack = s.stack := rfl
@[simp] theorem State.setStepResult_dt (s : State) (r : StepResult) : (s.setStepResult r).dt = s.dt := rfl
@[simp] theorem State.setStepResult_st (s : State) (r : StepResult) : (s.setStepResult r).st = s.st := rfl
@[simp] theorem State.setStepResult_mem (s : State) (r : StepResult) : (s.setStepResult r).mem = s.mem := rfl
@[simp] theorem State.setStepResult_keys (s : State) (r : StepResult) : (s.setStepResult r).keys = s.keys := rfl
@[simp] theorem State.setStepResult_fb (s : State) (r : StepResult) : (s.setStepResult r).fb = s.fb := rfl
@[simp] theorem State.setStepResult_run (s : State) (r : StepResult) : (s.setStepResult r).run = s.run := rfl
@[simp] theorem State.setStepResult_stepResult (s : State) (r : StepResult) : (s.setStepResult r).stepResult = some r := rfl
@[simp] theorem State.setStepResult_loadResult (s : State) (r : StepResult) : (s.setStepResult r).loadResult = s.loadResult := rfl
@[simp] theorem State.setStepResult_frameReady (s : State) (r : StepResult) : (s.setStepResult r).frameReady = s.frameReady := rfl
@[simp] theorem State.setStepResult_dtExpired (s : State) (r : StepResult) : (s.setStepResult r).dtExpired = s.dtExpired := rfl
@[simp] theorem State.setStepResult_stExpired (s : State) (r : StepResult) : (s.setStepResult r).stExpired = s.stExpired := rfl
@[simp] theorem State.setStepResult_draws (s : State) (r : StepResult) : (s.setStepResult r).draws = s.draws := rfl
@[simp] theorem State.setStepResult_schedule (s : State) (r : StepResult) : (s.setStepResult r).schedule = s.schedule := rfl
@[simp] theorem State.setStepResult_reg (s : State) (r : StepResult) (y : RegIdx) : (s.setStepResult r).reg y = s.reg y := rfl
@[simp] theorem State.setStepResult_memRead (s : State) (r : StepResult) (m : Nat) : (s.setStepResult r).memRead m = s.memRead m := rfl
@[simp] theorem State.setStepResult_pix (s : State) (r : StepResult) (col row : Nat) : (s.setStepResult r).pix col row = s.pix col row := rfl

/-! State.finishAt -/

@[simp] theorem State.finishAt_params (s : State) (a : Nat) : (s.finishAt a).params = s.params := rfl
@[simp] theorem State.finishAt_initialised (s : State) (a : Nat) : (s.finishAt a).initialised = s.initialised := rfl
@[simp] theorem State.finishAt_v (s : State) (a : Nat) : (s.finishAt a).v = s.v := rfl
@[simp] theorem State.finishAt_i (s : State) (a : Nat) : (s.finishAt a).i = s.i := rfl
theorem State.finishAt_pc (s : State) (a : Nat) : (s.finishAt a).pc = BitVec.ofNat 16 (a % 4096) := rfl
@[simp] theorem State.finishAt_stack (s : State) (a : Nat) : (s.finishAt a).stack = s.stack := rfl
@[simp] theorem State.finishAt_dt (s : State) (a : Nat) : (s.finishAt a).dt = s.dt := rfl
@[simp] theorem State.finishAt_st (s : State) (a : Nat) : (s.finishAt a).st = s.st := rfl
@[simp] theorem State.finishAt_mem (s : State) (a : Nat) : (s.finishAt a).mem = s.mem := rfl
@[simp] theorem State.finishAt_keys (s : State) (a : Nat) : (s.finishAt a).keys = s.keys := rfl
@[simp] theorem State.finishAt_fb (s : State) (a : Nat) : (s.finishAt a).fb = s.fb := rfl
@[simp] theorem State.finishAt_run (s : State) (a : Nat) : (s.finishAt a).run = s.run := rfl
@[simp] theorem State.finishAt_stepResult (s : State) (a : Nat) : (s.finishAt a).stepResult = some .executed := rfl
@[simp] theorem State.finishAt_loadResult (s : State) (a : Nat) : (s.finishAt a).loadResult = s.loadResult := rfl
@[simp] theorem State.finishAt_frameReady (s : State) (a : Nat) : (s.finishAt a).frameReady = s.frameReady := rfl
@[simp] theorem State.finishAt_dtExpired (s : State) (a : Nat) : (s.finishAt a).dtExpired = s.dtExpired := rfl
@[simp] theorem State.finishAt_stExpired (s : State) (a : Nat) : (s.finishAt a).stExpired = s.stExpired := rfl
@[simp] theorem State.finishAt_draws (s : State) (a : Nat) : (s.finishAt a).draws = s.draws := rfl
@[simp] theorem State.finishAt_schedule (s : State) (a : Nat) : (s.finishAt a).schedule = s.schedule := rfl
@[simp] theorem State.finishAt_reg (s : State) (a : Nat) (y : RegIdx) : (s.finishAt a).reg y = s.reg y := rfl
@[simp] theorem State.finishAt_memRead (s : State) (a : Nat) (m : Nat) : (s.finishAt a).memRead m = s.memRead m := rfl
@[simp] theorem State.finishAt_pix (s : State) (a : Nat) (col row : Nat) : (s.finishAt a).pix col row = s.pix col row := rfl

/-! State.finish -/

@[simp] theorem State.finish_params (s : State) (k : Nat) : (s.finish k).params = s.params := rfl
@[simp] theorem State.finish_initialised (s : State) (k : Nat) : (s.finish k).initialised = s.initialised := rfl
@[simp] theorem State.finish_v (s : State) (k : Nat) : (s.finish k).v = s.v := rfl
@[simp] theorem State.finish_i (s : State) (k : Nat) : (s.finish k).i = s.i := rfl
theorem State.finish_pc (s : State) (k : Nat) : (s.finish k).pc = BitVec.ofNat 16 ((s.pc.toNat + k) % 4096) := rfl
@[simp] theorem State.finish_stack (s : State) (k : Nat) : (s.finish k).stack = s.stack := rfl
@[simp] theorem State.finish_dt (s : State) (k : Nat) : (s.finish k).dt = s.dt := rfl
@[simp] theorem State.finish_st (s : State) (k : Nat) : (s.finish k).st = s.st := rfl
@[simp] theorem State.finish_mem (s : State) (k : Nat) : (s.finish k).mem = s.mem := rfl
@[simp] theorem State.finish_keys (s : State) (k : Nat) : (s.finish k).keys = s.keys := rfl
@[simp] theorem State.finish_fb (s : State) (k : Nat) : (s.finish k).fb = s.fb := rfl
@[simp] theorem State.finish_run (s : State) (k : Nat) : (s.finish k).run = s.run := rfl
@[simp] theorem State.finish_stepResult (s : State) (k : Nat) : (s.finish k).stepResult = some .executed := rfl
@[simp] theorem State.finish_loadResult (s : State) (k : Nat) : (s.finish k).loadResult = s.loadResult := rfl
@[simp] theorem State.finish_frameReady (s : State) (k : Nat) : (s.finish k).frameReady = s.frameReady := rfl
@[simp] theorem State.finish_dtExpired (s : State) (k : Nat) : (s.finish k).dtExpired = s.dtExpired := rfl
@[simp] theorem State.finish_stExpired (s : State) (k : Nat) : (s.finish k).stExpired = s.stExpired := rfl
@[simp] theorem State.finish_draws (s : State) (k : Nat) : (s.finish k).draws = s.draws := rfl
@[simp] theorem State.finish_schedule (s : State) (k : Nat) : (s.finish k).schedule = s.schedule := rfl
@[simp] theorem State.finish_reg (s : State) (k : Nat) (y : RegIdx) : (s.finish k).reg y = s.reg y := rfl
@[simp] theorem State.finish_memRead (s : State) (k : Nat) (m : Nat) : (s.finish k).memRead m = s.memRead m := rfl
@[simp] theorem State.finish_pix (s : State) (k : Nat) (col row : Nat) : (s.finish k).pix col row = s.pix col row := rfl

/-! State.push -/

@[simp] theorem State.push_params (s : State) (a : Addr) : (s.push a).params = s.params := rfl
@[simp] theorem State.push_initialised (s : State) (a : Addr) : (s.push a).initialised = s.initialised := rfl
@[simp] theorem State.push_v (s : State) (a : Addr) : (s.push a).v = s.v := rfl
@[simp] theorem State.push_i (s : State) (a : Addr) : (s.push a).i = s.i := rfl
@[simp] theorem State.push_pc (s : State) (a : Addr) : (s.push a).pc = s.pc := rfl
@[simp] theorem State.push_stack (s : State) (a : Addr) : (s.push a).stack = a :: s.stack := rfl
@[simp] theorem State.push_dt (s : State) (a : Addr) : (s.push a).dt = s.dt := rfl
@[simp] theorem State.push_st (s : State) (a : Addr) : (s.push a).st = s.st := rfl
@[simp] theorem State.push_mem (s : State) (a : Addr) : (s.push a).mem = s.mem := rfl
@[simp] theorem State.push_keys (s : State) (a : Addr) : (s.push a).keys = s.keys := rfl
@[simp] theorem State.push_fb (s : State) (a : Addr) : (s.push a).fb = s.fb := rfl
@[simp] theorem State.push_run (s : State) (a : Addr) : (s.push a).run = s.run := rfl
@[simp] theorem State.push_stepResult (s : State) (a : Addr) : (s.push a).stepResult = s.stepResult := rfl
@[simp] theorem State.push_loadResult (s : State) (a : Addr) : (s.push a).loadResult = s.loadResult := rfl
@[simp] theorem State.push_frameReady (s : State) (a : Addr) : (s.push a).frameReady = s.frameReady := rfl
@[simp] theorem State.push_dtExpired (s : State) (a : Addr) : (s.push a).dtExpired = s.dtExpired := rfl
@[simp] theorem State.push_stExpired (s : State) (a : Addr) : (s.push a).stExpired = s.stExpired := rfl
@[simp] theorem State.push_draws (s : State) (a : Addr) : (s.push a).draws = s.draws := rfl
@[simp] theorem State.push_schedule (s : State) (a : Addr) : (s.push a).schedule = s.schedule := rfl
@[simp] theorem State.push_reg (s : State) (a : Addr) (y : RegIdx) : (s.push a).reg y = s.reg y := rfl
@[simp] theorem State.push_memRead (s : State) (a : Addr) (m : Nat) : (s.push a).memRead m = s.memRead m := rfl
@[simp] theorem State.push_pix (s : State) (a : Addr) (col row : Nat) : (s.push a).pix col row = s.pix col row := rfl

/-! State.setStack -/

@[simp] theorem State.setStack_params (s : State) (r : List Addr) : (s.setStack r).params = s.params := rfl
@[simp] theorem State.setStack_initialised (s : State) (r : List Addr) : (s.setStack r).initialised = s.initialised := rfl
@[simp] theorem State.setStack_v (s : State) (r : List Addr) : (s.setStack r).v = s.v := rfl
@[simp] theorem State.setStack_i (s : State) (r : List Addr) : (s.setStack r).i = s.i := rfl
@[simp] theorem State.setStack_pc (s : State) (r : List Addr) : (s.setStack r).pc = s.pc := rfl
@[simp] theorem State.setStack_stack (s : State) (r : List Addr) : (s.setStack r).stack = r := rfl
@[simp] theorem State.setStack_dt (s : State) (r : List Addr) : (s.setStack r).dt = s.dt := rfl
@[simp] theorem State.setStack_st (s : State) (r : List Addr) : (s.setStack r).st = s.st := rfl
@[simp] theorem State.setStack_mem (s : State) (r : List Addr) : (s.setStack r).mem = s.mem := rfl
@[simp] theorem State.setStack_keys (s : State) (r : List Addr) : (s.setStack r).keys = s.keys := rfl
@[simp] theorem State.setStack_fb (s : State) (r : List Addr) : (s.setStack r).fb = s.fb := rfl
@[simp] theorem State.setStack_run (s : State) (r : List Addr) : (s.setStack r).run = s.run := rfl
@[simp] theorem State.setStack_stepResult (s : State) (r : List Addr) : (s.setStack r).stepResult = s.stepResult := rfl
@[simp] theorem State.setStack_loadResult (s : State) (r : List Addr) : (s.setStack r).loadResult = s.loadResult := rfl
@[simp] theorem State.setStack_frameReady (s : State) (r : List Addr) : (s.setStack r).frameReady = s.frameReady := rfl
@[simp] theorem State.setStack_dtExpired (s : State) (r : List Addr) : (s.setStack r).dtExpired = s.dtExpired := rfl
@[simp] theorem State.setStack_stExpired (s : State) (r : List Addr) : (s.setStack r).stExpired = s.stExpired := rfl
@[simp] theorem State.setStack_draws (s : State) (r : List Addr) : (s.setStack r).draws = s.draws := rfl
@[simp] theorem State.setStack_schedule (s : State) (r : List Addr) : (s.setStack r).schedule = s.schedule := rfl
@[simp] theorem State.setStack_reg (s : State) (r : List Addr) (y : RegIdx) : (s.setStack r).reg y = s.reg y := rfl
@[simp] theorem State.setStack_memRead (s : State) (r : List Addr) (m : Nat) : (s.setStack r).memRead m = s.memRead m := rfl
@[simp] theorem State.setStack_pix (s : State) (r : List Addr) (col row : Nat) : (s.setStack r).pix col row = s.pix col row := rfl

/-! State.present -/

@[simp] theorem State.present_params (s : State) (f : Framebuffer) : (s.present f).params = s.params := rfl
@[simp] theorem State.present_initialised (s : State) (f : Framebuffer) : (s.present f).initialised = s.initialised := rfl
@[simp] theorem State.present_v (s : State) (f : Framebuffer) : (s.present f).v = s.v := rfl
@[simp] theorem State.present_i (s : State) (f : Framebuffer) : (s.present f).i = s.i := rfl
@[simp] theorem State.present_pc (s : State) (f : Framebuffer) : (s.present f).pc = s.pc := rfl
@[simp] theorem State.present_stack (s : State) (f : Framebuffer) : (s.present f).stack = s.stack := rfl
@[simp] theorem State.present_dt (s : State) (f : Framebuffer) : (s.present f).dt = s.dt := rfl
@[simp] theorem State.present_st (s : State) (f : Framebuffer) : (s.present f).st = s.st := rfl
@[simp] theorem State.present_mem (s : State) (f : Framebuffer) : (s.present f).mem = s.mem := rfl
@[simp] theorem State.present_keys (s : State) (f : Framebuffer) : (s.present f).keys = s.keys := rfl
@[simp] theorem State.present_fb (s : State) (f : Framebuffer) : (s.present f).fb = f := rfl
@[simp] theorem State.present_run (s : State) (f : Framebuffer) : (s.present f).run = s.run := rfl
@[simp] theorem State.present_stepResult (s : State) (f : Framebuffer) : (s.present f).stepResult = s.stepResult := rfl
@[simp] theorem State.present_loadResult (s : State) (f : Framebuffer) : (s.present f).loadResult = s.loadResult := rfl
@[simp] theorem State.present_frameReady (s : State) (f : Framebuffer) : (s.present f).frameReady = s.frameReady + 1 := rfl
@[simp] theorem State.present_dtExpired (s : State) (f : Framebuffer) : (s.present f).dtExpired = s.dtExpired := rfl
@[simp] theorem State.present_stExpired (s : State) (f : Framebuffer) : (s.present f).stExpired = s.stExpired := rfl
@[simp] theorem State.present_draws (s : State) (f : Framebuffer) : (s.present f).draws = s.draws := rfl
@[simp] theorem State.present_schedule (s : State) (f : Framebuffer) : (s.present f).schedule = s.schedule := rfl
@[simp] theorem State.present_reg (s : State) (f : Framebuffer) (y : RegIdx) : (s.present f).reg y = s.reg y := rfl
@[simp] theorem State.present_memRead (s : State) (f : Framebuffer) (m : Nat) : (s.present f).memRead m = s.memRead m := rfl

/-! State.drawn -/

@[simp] theorem State.drawn_params (s : State) : (s.drawn).params = s.params := rfl
@[simp] theorem State.drawn_initialised (s : State) : (s.drawn).initialised = s.initialised := rfl
@[simp] theorem State.drawn_v (s : State) : (s.drawn).v = s.v := rfl
@[simp] theorem State.drawn_i (s : State) : (s.drawn).i = s.i := rfl
@[simp] theorem State.drawn_pc (s : State) : (s.drawn).pc = s.pc := rfl
@[simp] theorem State.drawn_stack (s : State) : (s.drawn).stack = s.stack := rfl
@[simp] theorem State.drawn_dt (s : State) : (s.drawn).dt = s.dt := rfl
@[simp] theorem State.drawn_st (s : State) : (s.drawn).st = s.st := rfl
@[simp] theorem State.drawn_mem (s : State) : (s.drawn).mem = s.mem := rfl
@[simp] theorem State.drawn_keys (s : State) : (s.drawn).keys = s.keys := rfl
@[simp] theorem State.drawn_fb (s : State) : (s.drawn).fb = s.fb := rfl
@[simp] theorem State.drawn_run (s : State) : (s.drawn).run = s.run := rfl
@[simp] theorem State.drawn_stepResult (s : State) : (s.drawn).stepResult = s.stepResult := rfl
@[simp] theorem State.drawn_loadResult (s : State) : (s.drawn).loadResult = s.loadResult := rfl
@[simp] theorem State.drawn_frameReady (s : State) : (s.drawn).frameReady = s.frameReady := rfl
@[simp] theorem State.drawn_dtExpired (s : State) : (s.drawn).dtExpired = s.dtExpired := rfl
@[simp] theorem State.drawn_stExpired (s : State) : (s.drawn).stExpired = s.stExpired := rfl
@[simp] theorem State.drawn_draws (s : State) : (s.drawn).draws = s.draws + 1 := rfl
@[simp] theorem State.drawn_schedule (s : State) : (s.drawn).schedule = s.schedule := rfl
@[simp] theorem State.drawn_reg (s : State) (y : RegIdx) : (s.drawn).reg y = s.reg y := rfl
@[simp] theorem State.drawn_memRead (s : State) (m : Nat) : (s.drawn).memRead m = s.memRead m := rfl
@[simp] theorem State.drawn_pix (s : State) (col row : Nat) : (s.drawn).pix col row = s.pix col row := rfl

/-! State.raiseFault -/

@[simp] theorem State.raiseFault_params (s : State) (c : Fault) (w : Word) : (s.raiseFault c w).params = s.params := rfl
@[simp] theorem State.raiseFault_initialised (s : State) (c : Fault) (w : Word) : (s.raiseFault c w).initialised = s.initialised := rfl
@[simp] theorem State.raiseFault_v (s : State) (c : Fault) (w : Word) : (s.raiseFault c w).v = s.v := rfl
@[simp] theorem State.raiseFault_i (s : State) (c : Fault) (w : Word) : (s.raiseFault c w).i = s.i := rfl
@[simp] theorem State.raiseFault_pc (s : State) (c : Fault) (w : Word) : (s.raiseFault c w).pc = s.pc := rfl
@[simp] theorem State.raiseFault_stack (s : State) (c : Fault) (w : Word) : (s.raiseFault c w).stack = s.stack := rfl
@[simp] theorem State.raiseFault_dt (s : State) (c : Fault) (w : Word) : (s.raiseFault c w).dt = s.dt := rfl
@[simp] theorem State.raiseFault_st (s : State) (c : Fault) (w : Word) : (s.raiseFault c w).st = s.st := rfl
@[simp] theorem State.raiseFault_mem (s : State) (c : Fault) (w : Word) : (s.raiseFault c w).mem = s.mem := rfl
@[simp] theorem State.raiseFault_keys (s : State) (c : Fault) (w : Word) : (s.raiseFault c w).keys = s.keys := rfl
@[simp] theorem State.raiseFault_fb (s : State) (c : Fault) (w : Word) : (s.raiseFault c w).fb = s.fb := rfl
@[simp] theorem State.raiseFault_run (s : State) (c : Fault) (w : Word) : (s.raiseFault c w).run = .halted c w := rfl
@[simp] theorem State.raiseFault_stepResult (s : State) (c : Fault) (w : Word) : (s.raiseFault c w).stepResult = some (.fault c) := rfl
@[simp] theorem State.raiseFault_loadResult (s : State) (c : Fault) (w : Word) : (s.raiseFault c w).loadResult = s.loadResult := rfl
@[simp] theorem State.raiseFault_frameReady (s : State) (c : Fault) (w : Word) : (s.raiseFault c w).frameReady = s.frameReady := rfl
@[simp] theorem State.raiseFault_dtExpired (s : State) (c : Fault) (w : Word) : (s.raiseFault c w).dtExpired = s.dtExpired := rfl
@[simp] theorem State.raiseFault_stExpired (s : State) (c : Fault) (w : Word) : (s.raiseFault c w).stExpired = s.stExpired := rfl
@[simp] theorem State.raiseFault_draws (s : State) (c : Fault) (w : Word) : (s.raiseFault c w).draws = s.draws := rfl
@[simp] theorem State.raiseFault_schedule (s : State) (c : Fault) (w : Word) : (s.raiseFault c w).schedule = s.schedule := rfl
@[simp] theorem State.raiseFault_reg (s : State) (c : Fault) (w : Word) (y : RegIdx) : (s.raiseFault c w).reg y = s.reg y := rfl
@[simp] theorem State.raiseFault_memRead (s : State) (c : Fault) (w : Word) (m : Nat) : (s.raiseFault c w).memRead m = s.memRead m := rfl
@[simp] theorem State.raiseFault_pix (s : State) (c : Fault) (w : Word) (col row : Nat) : (s.raiseFault c w).pix col row = s.pix col row := rfl

/-! State.memWrite -/

@[simp] theorem State.memWrite_params (s : State) (a : Nat) (b : Byte) : (s.memWrite a b).params = s.params := rfl
@[simp] theorem State.memWrite_initialised (s : State) (a : Nat) (b : Byte) : (s.memWrite a b).initialised = s.initialised := rfl
@[simp] theorem State.memWrite_v (s : State) (a : Nat) (b : Byte) : (s.memWrite a b).v = s.v := rfl
@[simp] theorem State.memWrite_i (s : State) (a : Nat) (b : Byte) : (s.memWrite a b).i = s.i := rfl
@[simp] theorem State.memWrite_pc (s : State) (a : Nat) (b : Byte) : (s.memWrite a b).pc = s.pc := rfl
@[simp] theorem State.memWrite_stack (s : State) (a : Nat) (b : Byte) : (s.memWrite a b).stack = s.stack := rfl
@[simp] theorem State.memWrite_dt (s : State) (a : Nat) (b : Byte) : (s.memWrite a b).dt = s.dt := rfl
@[simp] theorem State.memWrite_st (s : State) (a : Nat) (b : Byte) : (s.memWrite a b).st = s.st := rfl
@[simp] theorem State.memWrite_mem (s : State) (a : Nat) (b : Byte) : (s.memWrite a b).mem = Memory.write s.params.fontRom s.mem (cellOf a) b := rfl
@[simp] theorem State.memWrite_keys (s : State) (a : Nat) (b : Byte) : (s.memWrite a b).keys = s.keys := rfl
@[simp] theorem State.memWrite_fb (s : State) (a : Nat) (b : Byte) : (s.memWrite a b).fb = s.fb := rfl
@[simp] theorem State.memWrite_run (s : State) (a : Nat) (b : Byte) : (s.memWrite a b).run = s.run := rfl
@[simp] theorem State.memWrite_stepResult (s : State) (a : Nat) (b : Byte) : (s.memWrite a b).stepResult = s.stepResult := rfl
@[simp] theorem State.memWrite_loadResult (s : State) (a : Nat) (b : Byte) : (s.memWrite a b).loadResult = s.loadResult := rfl
@[simp] theorem State.memWrite_frameReady (s : State) (a : Nat) (b : Byte) : (s.memWrite a b).frameReady = s.frameReady := rfl
@[simp] theorem State.memWrite_dtExpired (s : State) (a : Nat) (b : Byte) : (s.memWrite a b).dtExpired = s.dtExpired := rfl
@[simp] theorem State.memWrite_stExpired (s : State) (a : Nat) (b : Byte) : (s.memWrite a b).stExpired = s.stExpired := rfl
@[simp] theorem State.memWrite_draws (s : State) (a : Nat) (b : Byte) : (s.memWrite a b).draws = s.draws := rfl
@[simp] theorem State.memWrite_schedule (s : State) (a : Nat) (b : Byte) : (s.memWrite a b).schedule = s.schedule := rfl
@[simp] theorem State.memWrite_reg (s : State) (a : Nat) (b : Byte) (y : RegIdx) : (s.memWrite a b).reg y = s.reg y := rfl
@[simp] theorem State.memWrite_pix (s : State) (a : Nat) (b : Byte) (col row : Nat) : (s.memWrite a b).pix col row = s.pix col row := rfl

/-! State.waitForKey -/

@[simp] theorem State.waitForKey_params (s : State) (x : RegIdx) : (s.waitForKey x).params = s.params := rfl
@[simp] theorem State.waitForKey_initialised (s : State) (x : RegIdx) : (s.waitForKey x).initialised = s.initialised := rfl
@[simp] theorem State.waitForKey_v (s : State) (x : RegIdx) : (s.waitForKey x).v = s.v := rfl
@[simp] theorem State.waitForKey_i (s : State) (x : RegIdx) : (s.waitForKey x).i = s.i := rfl
@[simp] theorem State.waitForKey_pc (s : State) (x : RegIdx) : (s.waitForKey x).pc = s.pc := rfl
@[simp] theorem State.waitForKey_stack (s : State) (x : RegIdx) : (s.waitForKey x).stack = s.stack := rfl
@[simp] theorem State.waitForKey_dt (s : State) (x : RegIdx) : (s.waitForKey x).dt = s.dt := rfl
@[simp] theorem State.waitForKey_st (s : State) (x : RegIdx) : (s.waitForKey x).st = s.st := rfl
@[simp] theorem State.waitForKey_mem (s : State) (x : RegIdx) : (s.waitForKey x).mem = s.mem := rfl
@[simp] theorem State.waitForKey_keys (s : State) (x : RegIdx) : (s.waitForKey x).keys = s.keys := rfl
@[simp] theorem State.waitForKey_fb (s : State) (x : RegIdx) : (s.waitForKey x).fb = s.fb := rfl
@[simp] theorem State.waitForKey_run (s : State) (x : RegIdx) : (s.waitForKey x).run = .waitKey x s.keys := rfl
@[simp] theorem State.waitForKey_stepResult (s : State) (x : RegIdx) : (s.waitForKey x).stepResult = some .waiting := rfl
@[simp] theorem State.waitForKey_loadResult (s : State) (x : RegIdx) : (s.waitForKey x).loadResult = s.loadResult := rfl
@[simp] theorem State.waitForKey_frameReady (s : State) (x : RegIdx) : (s.waitForKey x).frameReady = s.frameReady := rfl
@[simp] theorem State.waitForKey_dtExpired (s : State) (x : RegIdx) : (s.waitForKey x).dtExpired = s.dtExpired := rfl
@[simp] theorem State.waitForKey_stExpired (s : State) (x : RegIdx) : (s.waitForKey x).stExpired = s.stExpired := rfl
@[simp] theorem State.waitForKey_draws (s : State) (x : RegIdx) : (s.waitForKey x).draws = s.draws := rfl
@[simp] theorem State.waitForKey_schedule (s : State) (x : RegIdx) : (s.waitForKey x).schedule = s.schedule := rfl
@[simp] theorem State.waitForKey_reg (s : State) (x : RegIdx) (y : RegIdx) : (s.waitForKey x).reg y = s.reg y := rfl
@[simp] theorem State.waitForKey_memRead (s : State) (x : RegIdx) (m : Nat) : (s.waitForKey x).memRead m = s.memRead m := rfl
@[simp] theorem State.waitForKey_pix (s : State) (x : RegIdx) (col row : Nat) : (s.waitForKey x).pix col row = s.pix col row := rfl

/-! State.setKeys -/

@[simp] theorem State.setKeys_params (s : State) (k : Keys) : (s.setKeys k).params = s.params := rfl
@[simp] theorem State.setKeys_initialised (s : State) (k : Keys) : (s.setKeys k).initialised = s.initialised := rfl
@[simp] theorem State.setKeys_v (s : State) (k : Keys) : (s.setKeys k).v = s.v := rfl
@[simp] theorem State.setKeys_i (s : State) (k : Keys) : (s.setKeys k).i = s.i := rfl
@[simp] theorem State.setKeys_pc (s : State) (k : Keys) : (s.setKeys k).pc = s.pc := rfl
@[simp] theorem State.setKeys_stack (s : State) (k : Keys) : (s.setKeys k).stack = s.stack := rfl
@[simp] theorem State.setKeys_dt (s : State) (k : Keys) : (s.setKeys k).dt = s.dt := rfl
@[simp] theorem State.setKeys_st (s : State) (k : Keys) : (s.setKeys k).st = s.st := rfl
@[simp] theorem State.setKeys_mem (s : State) (k : Keys) : (s.setKeys k).mem = s.mem := rfl
@[simp] theorem State.setKeys_keys (s : State) (k : Keys) : (s.setKeys k).keys = k := rfl
@[simp] theorem State.setKeys_fb (s : State) (k : Keys) : (s.setKeys k).fb = s.fb := rfl
@[simp] theorem State.setKeys_run (s : State) (k : Keys) : (s.setKeys k).run = s.run := rfl
@[simp] theorem State.setKeys_stepResult (s : State) (k : Keys) : (s.setKeys k).stepResult = s.stepResult := rfl
@[simp] theorem State.setKeys_loadResult (s : State) (k : Keys) : (s.setKeys k).loadResult = s.loadResult := rfl
@[simp] theorem State.setKeys_frameReady (s : State) (k : Keys) : (s.setKeys k).frameReady = s.frameReady := rfl
@[simp] theorem State.setKeys_dtExpired (s : State) (k : Keys) : (s.setKeys k).dtExpired = s.dtExpired := rfl
@[simp] theorem State.setKeys_stExpired (s : State) (k : Keys) : (s.setKeys k).stExpired = s.stExpired := rfl
@[simp] theorem State.setKeys_draws (s : State) (k : Keys) : (s.setKeys k).draws = s.draws := rfl
@[simp] theorem State.setKeys_schedule (s : State) (k : Keys) : (s.setKeys k).schedule = s.schedule := rfl
@[simp] theorem State.setKeys_reg (s : State) (k : Keys) (y : RegIdx) : (s.setKeys k).reg y = s.reg y := rfl
@[simp] theorem State.setKeys_memRead (s : State) (k : Keys) (m : Nat) : (s.setKeys k).memRead m = s.memRead m := rfl
@[simp] theorem State.setKeys_pix (s : State) (k : Keys) (col row : Nat) : (s.setKeys k).pix col row = s.pix col row := rfl

/-! State.offered -/

@[simp] theorem State.offered_params (s : State) (op : PortOp) : (s.offered op).params = s.params := rfl
@[simp] theorem State.offered_initialised (s : State) (op : PortOp) : (s.offered op).initialised = s.initialised := rfl
@[simp] theorem State.offered_v (s : State) (op : PortOp) : (s.offered op).v = s.v := rfl
@[simp] theorem State.offered_i (s : State) (op : PortOp) : (s.offered op).i = s.i := rfl
@[simp] theorem State.offered_pc (s : State) (op : PortOp) : (s.offered op).pc = s.pc := rfl
@[simp] theorem State.offered_stack (s : State) (op : PortOp) : (s.offered op).stack = s.stack := rfl
@[simp] theorem State.offered_dt (s : State) (op : PortOp) : (s.offered op).dt = s.dt := rfl
@[simp] theorem State.offered_st (s : State) (op : PortOp) : (s.offered op).st = s.st := rfl
@[simp] theorem State.offered_mem (s : State) (op : PortOp) : (s.offered op).mem = s.mem := rfl
@[simp] theorem State.offered_keys (s : State) (op : PortOp) : (s.offered op).keys = s.keys := rfl
@[simp] theorem State.offered_fb (s : State) (op : PortOp) : (s.offered op).fb = s.fb := rfl
@[simp] theorem State.offered_run (s : State) (op : PortOp) : (s.offered op).run = s.run := rfl
@[simp] theorem State.offered_stepResult (s : State) (op : PortOp) : (s.offered op).stepResult = s.stepResult := rfl
@[simp] theorem State.offered_loadResult (s : State) (op : PortOp) : (s.offered op).loadResult = s.loadResult := rfl
@[simp] theorem State.offered_frameReady (s : State) (op : PortOp) : (s.offered op).frameReady = s.frameReady := rfl
@[simp] theorem State.offered_dtExpired (s : State) (op : PortOp) : (s.offered op).dtExpired = s.dtExpired := rfl
@[simp] theorem State.offered_stExpired (s : State) (op : PortOp) : (s.offered op).stExpired = s.stExpired := rfl
@[simp] theorem State.offered_draws (s : State) (op : PortOp) : (s.offered op).draws = s.draws := rfl
@[simp] theorem State.offered_schedule (s : State) (op : PortOp) : (s.offered op).schedule = [op] := rfl
@[simp] theorem State.offered_reg (s : State) (op : PortOp) (y : RegIdx) : (s.offered op).reg y = s.reg y := rfl
@[simp] theorem State.offered_memRead (s : State) (op : PortOp) (m : Nat) : (s.offered op).memRead m = s.memRead m := rfl
@[simp] theorem State.offered_pix (s : State) (op : PortOp) (col row : Nat) : (s.offered op).pix col row = s.pix col row := rfl

end Sys2Proof.Machine
end

