-- ==== Sys2Proof/Laws/Decode.lean ====
section
/-! SUPPORT. The fields of each format (30_encoding.md R71, R72), so that no proof about decoding works on bits. -/

namespace Sys2Proof

open BitVec

/-! Format NNN -/

@[simp] theorem fields_fmtNNN_op (op : Nibble) (nnn : Addr) : (fields (fmtNNN op nnn)).op = op :=
  extractLsb'_append_eq_left (a := op) (b := nnn)

@[simp] theorem fields_fmtNNN_nnn (op : Nibble) (nnn : Addr) : (fields (fmtNNN op nnn)).nnn = nnn :=
  extractLsb'_append_eq_right (a := op) (b := nnn)

/-! Format XNN -/

@[simp] theorem fields_fmtXNN_op (op : Nibble) (x : RegIdx) (nn : Byte) : (fields (fmtXNN op x nn)).op = op :=
  (extractLsb'_append_eq_of_le (xhi := (op ++ x : Byte)) (xlo := nn) (start := 12) (len := 4) (by decide)).trans
    (extractLsb'_append_eq_left (a := op) (b := x))

@[simp] theorem fields_fmtXNN_x (op : Nibble) (x : RegIdx) (nn : Byte) : (fields (fmtXNN op x nn)).x = x :=
  (extractLsb'_append_eq_of_le (xhi := (op ++ x : Byte)) (xlo := nn) (start := 8) (len := 4) (by decide)).trans
    (extractLsb'_append_eq_right (a := op) (b := x))

@[simp] theorem fields_fmtXNN_nn (op : Nibble) (x : RegIdx) (nn : Byte) : (fields (fmtXNN op x nn)).nn = nn :=
  extractLsb'_append_eq_right (a := (op ++ x : Byte)) (b := nn)

/-! Formats XYF and XYN -/

@[simp] theorem fields_fmtXYN_op (op : Nibble) (x y : RegIdx) (n : Nibble) : (fields (fmtXYN op x y n)).op = op :=
  fields_fmtXNN_op op x (y ++ n : Byte)

@[simp] theorem fields_fmtXYN_x (op : Nibble) (x y : RegIdx) (n : Nibble) : (fields (fmtXYN op x y n)).x = x :=
  fields_fmtXNN_x op x (y ++ n : Byte)

@[simp] theorem fields_fmtXYN_y (op : Nibble) (x y : RegIdx) (n : Nibble) : (fields (fmtXYN op x y n)).y = y :=
  (extractLsb'_append_eq_of_add_le (xhi := (op ++ x : Byte)) (xlo := (y ++ n : Byte)) (start := 4) (len := 4)
    (by decide)).trans (extractLsb'_append_eq_left (a := y) (b := n))

@[simp] theorem fields_fmtXYN_n (op : Nibble) (x y : RegIdx) (n : Nibble) : (fields (fmtXYN op x y n)).n = n :=
  (extractLsb'_append_eq_of_add_le (xhi := (op ++ x : Byte)) (xlo := (y ++ n : Byte)) (start := 0) (len := 4)
    (by decide)).trans (extractLsb'_append_eq_right (a := y) (b := n))

/-! Words as their fields -/

/-- A word is its leading nibble and address field. -/
theorem fmtNNN_fields (w : Word) : fmtNNN (fields w).op (fields w).nnn = w := by
  apply eq_of_toNat_eq
  simp only [fmtNNN, fields]
  rw [toNat_append, extractLsb'_toNat, extractLsb'_toNat, ← Nat.shiftLeft_add_eq_or_of_lt (by omega)]
  simp only [Nat.shiftLeft_eq, Nat.shiftRight_eq_div_pow]
  omega

/-- A word is its leading nibble, X and low byte. -/
theorem fmtXNN_fields (w : Word) : fmtXNN (fields w).op (fields w).x (fields w).nn = w := by
  apply eq_of_toNat_eq
  simp only [fmtXNN, fields]
  rw [toNat_append, toNat_append, extractLsb'_toNat, extractLsb'_toNat, extractLsb'_toNat,
    ← Nat.shiftLeft_add_eq_or_of_lt (by omega), ← Nat.shiftLeft_add_eq_or_of_lt (by omega)]
  simp only [Nat.shiftLeft_eq, Nat.shiftRight_eq_div_pow]
  omega

/-- A low byte is Y and the trailing nibble. -/
theorem nn_fields (w : Word) : ((fields w).y ++ (fields w).n : Byte) = (fields w).nn := by
  apply eq_of_toNat_eq
  simp only [fields]
  rw [toNat_append, extractLsb'_toNat, extractLsb'_toNat, extractLsb'_toNat, ← Nat.shiftLeft_add_eq_or_of_lt (by omega)]
  simp only [Nat.shiftLeft_eq, Nat.shiftRight_eq_div_pow]
  omega

/-- A word is its four nibbles. -/
theorem fmtXYN_fields (w : Word) : fmtXYN (fields w).op (fields w).x (fields w).y (fields w).n = w := by
  unfold fmtXYN
  rw [nn_fields]
  exact fmtXNN_fields w

/-- A word is its two bytes, the high one first (20_memory.md R52). -/
@[simp] theorem wordOfBytes_bytes (w : Word) : wordOfBytes (highByte w) (lowByte w) = w := by
  apply eq_of_toNat_eq
  simp only [wordOfBytes, highByte, lowByte]
  rw [toNat_append, extractLsb'_toNat, extractLsb'_toNat, ← Nat.shiftLeft_add_eq_or_of_lt (by omega)]
  simp only [Nat.shiftLeft_eq, Nat.shiftRight_eq_div_pow]
  omega

end Sys2Proof
end

