-- ==== Sys2Proof/Laws/Memory.lean ====
section
/-! SUPPORT. The laws of memory (20_memory.md R51, R60): a read after a write, the canonical form, and what a run of
stores can do. -/

namespace Sys2Proof.Machine

/-! Cells -/

@[simp] theorem cellOf_lt (a : Nat) : cellOf a < 4096 := Nat.mod_lt _ (by decide)

@[simp] theorem cellOf_cellOf (a : Nat) : cellOf (cellOf a) = cellOf a := Nat.mod_mod _ _

theorem cellOf_eq_self {a : Nat} (h : a < 4096) : cellOf a = a := Nat.mod_eq_of_lt h

/-- Addresses less than 4096 apart are in different cells. -/
theorem cellOf_add_ne {a j k : Nat} (hjk : j < k) (hk : k < j + 4096) : cellOf (a + j) ≠ cellOf (a + k) := by
  unfold cellOf; omega

/-! Reads after unlist, enlist and write -/

theorem Memory.read_unlist_same (rom : FontRom) (m : Memory) (a : Nat) :
    Memory.read rom (Memory.unlist m a) a = Memory.unlisted rom a := by
  induction m with
  | nil => rfl
  | cons d rest ih =>
    obtain ⟨k, v⟩ := d
    by_cases h : k = a <;> simp_all [Memory.unlist, Memory.read]

theorem Memory.read_unlist_other (rom : FontRom) (m : Memory) {a c : Nat} (hc : c ≠ a) :
    Memory.read rom (Memory.unlist m a) c = Memory.read rom m c := by
  induction m with
  | nil => rfl
  | cons d rest ih =>
    obtain ⟨k, v⟩ := d
    by_cases h : k = a
    · subst h; simp_all [Memory.unlist, Memory.read, hc.symm]
    · simp_all [Memory.unlist, Memory.read]

theorem Memory.read_enlist_other (rom : FontRom) (m : Memory) {a c : Nat} (b : Byte) (hc : c ≠ a) :
    Memory.read rom (Memory.enlist m a b) c = Memory.read rom m c := by
  induction m with
  | nil => simp [Memory.enlist, Memory.read, hc.symm]
  | cons d rest ih =>
    obtain ⟨k, v⟩ := d
    unfold Memory.enlist
    split
    · simp only [Memory.read, ih]
    · simp [Memory.read, hc.symm]

theorem Memory.read_enlist_same (rom : FontRom) (m : Memory) (a : Nat) (b : Byte) (h : ∀ d ∈ m, d.1 ≠ a) :
    Memory.read rom (Memory.enlist m a b) a = b := by
  induction m with
  | nil => simp [Memory.enlist, Memory.read]
  | cons d rest ih =>
    obtain ⟨k, v⟩ := d
    have hk : k ≠ a := h (k, v) (by simp)
    unfold Memory.enlist
    split
    · simp [Memory.read, hk, ih (fun d hd => h d (by simp [hd]))]
    · simp [Memory.read]

theorem Memory.not_mem_unlist (m : Memory) (a : Nat) : ∀ d ∈ Memory.unlist m a, d.1 ≠ a := by
  simp [Memory.unlist]

/-- Reading the cell just written gives the byte written. -/
theorem Memory.read_write_same (rom : FontRom) (m : Memory) (a : Nat) (b : Byte) :
    Memory.read rom (Memory.write rom m a b) a = b := by
  unfold Memory.write
  split
  · next hb => rw [Memory.read_unlist_same, hb]
  · exact Memory.read_enlist_same _ _ _ _ (Memory.not_mem_unlist m a)

/-- A write leaves every other cell as it was. -/
theorem Memory.read_write_other (rom : FontRom) (m : Memory) {a c : Nat} (b : Byte) (h : c ≠ a) :
    Memory.read rom (Memory.write rom m a b) c = Memory.read rom m c := by
  unfold Memory.write
  split
  · exact Memory.read_unlist_other _ _ h
  · rw [Memory.read_enlist_other _ _ _ h, Memory.read_unlist_other _ _ h]

/-! The canonical form -/

theorem Memory.wfFrom_cons (rom : FontRom) (lo k : Nat) (v : Byte) (rest : Memory) :
    Memory.wfFrom rom lo ((k, v) :: rest) = true ↔
      lo ≤ k ∧ k < 4096 ∧ v ≠ Memory.unlisted rom k ∧ Memory.wfFrom rom (k + 1) rest = true := by
  simp [Memory.wfFrom, and_assoc]

theorem Memory.wfFrom_mono (rom : FontRom) (m : Memory) {lo lo' : Nat} (hl : lo' ≤ lo)
    (h : Memory.wfFrom rom lo m = true) : Memory.wfFrom rom lo' m = true := by
  cases m with
  | nil => rfl
  | cons d rest =>
    obtain ⟨k, v⟩ := d
    rw [Memory.wfFrom_cons] at h ⊢
    exact ⟨by omega, h.2⟩

theorem Memory.wfFrom_unlist (rom : FontRom) (m : Memory) (lo a : Nat) (h : Memory.wfFrom rom lo m = true) :
    Memory.wfFrom rom lo (Memory.unlist m a) = true := by
  induction m generalizing lo with
  | nil => rfl
  | cons d rest ih =>
    obtain ⟨k, v⟩ := d
    rw [Memory.wfFrom_cons] at h
    have hr := ih (k + 1) h.2.2.2
    by_cases hk : k = a
    · simpa [Memory.unlist, hk] using Memory.wfFrom_mono rom _ (by omega) hr
    · have : Memory.unlist ((k, v) :: rest) a = (k, v) :: Memory.unlist rest a := by simp [Memory.unlist, hk]
      rw [this, Memory.wfFrom_cons]
      exact ⟨h.1, h.2.1, h.2.2.1, hr⟩

theorem Memory.wfFrom_enlist (rom : FontRom) (m : Memory) (lo a : Nat) (b : Byte) (hlo : lo ≤ a) (ha : a < 4096)
    (hb : b ≠ Memory.unlisted rom a) (hm : ∀ d ∈ m, d.1 ≠ a) (h : Memory.wfFrom rom lo m = true) :
    Memory.wfFrom rom lo (Memory.enlist m a b) = true := by
  induction m generalizing lo with
  | nil => rw [Memory.enlist, Memory.wfFrom_cons]; exact ⟨hlo, ha, hb, rfl⟩
  | cons d rest ih =>
    obtain ⟨k, v⟩ := d
    have hk : k ≠ a := hm (k, v) (by simp)
    rw [Memory.wfFrom_cons] at h
    unfold Memory.enlist
    split
    · rw [Memory.wfFrom_cons]
      exact ⟨h.1, h.2.1, h.2.2.1, ih (k + 1) (by omega) (fun d hd => hm d (by simp [hd])) h.2.2.2⟩
    · rw [Memory.wfFrom_cons, Memory.wfFrom_cons]
      exact ⟨hlo, ha, hb, by omega, h.2.1, h.2.2.1, h.2.2.2⟩

/-- Memory.write keeps the canonical form. -/
theorem Memory.wf_write (rom : FontRom) (m : Memory) (a : Nat) (b : Byte) (ha : a < 4096)
    (h : Memory.wf rom m = true) : Memory.wf rom (Memory.write rom m a b) = true := by
  unfold Memory.wf at *
  unfold Memory.write
  split
  · exact Memory.wfFrom_unlist rom m 0 a h
  · next hb =>
    exact Memory.wfFrom_enlist rom _ 0 a b (Nat.zero_le _) ha hb (Memory.not_mem_unlist m a) (Memory.wfFrom_unlist rom m 0 a h)

/-- Below its least address a canonical memory reads as after reset. -/
theorem Memory.read_below (rom : FontRom) (m : Memory) (a lo : Nat) (h : Memory.wfFrom rom lo m = true) (ha : a < lo) :
    Memory.read rom m a = Memory.unlisted rom a := by
  induction m generalizing lo with
  | nil => rfl
  | cons d rest ih =>
    obtain ⟨k, v⟩ := d
    rw [Memory.wfFrom_cons] at h
    rw [Memory.read, if_neg (by omega)]
    exact ih _ h.2.2.2 (by omega)

/-- Canonical memories that read the same in every cell are the same list. -/
theorem Memory.eq_of_read_eq (rom : FontRom) (m n : Memory) (lo : Nat) (hm : Memory.wfFrom rom lo m = true)
    (hn : Memory.wfFrom rom lo n = true) (h : ∀ a, Memory.read rom m a = Memory.read rom n a) : m = n := by
  induction m generalizing n lo with
  | nil =>
    cases n with
    | nil => rfl
    | cons d rest =>
      obtain ⟨k, v⟩ := d
      have hk := h k
      rw [Memory.wfFrom_cons] at hn
      exact absurd (by simpa [Memory.read] using hk.symm) hn.2.2.1
  | cons d rest ih =>
    obtain ⟨k, v⟩ := d
    rw [Memory.wfFrom_cons] at hm
    cases n with
    | nil =>
      have hk := h k
      exact absurd (by simpa [Memory.read] using hk) hm.2.2.1
    | cons e rest' =>
      obtain ⟨q, u⟩ := e
      rw [Memory.wfFrom_cons] at hn
      have hkq : k = q := by
        rcases Nat.lt_trichotomy k q with hlt | heq | hgt
        · have hk := h k
          rw [Memory.read, if_pos rfl, Memory.read, if_neg (by omega),
            Memory.read_below rom rest' k (q + 1) hn.2.2.2 (by omega)] at hk
          exact absurd hk hm.2.2.1
        · exact heq
        · have hq := h q
          rw [Memory.read, if_neg (by omega), Memory.read, if_pos rfl,
            Memory.read_below rom rest q (k + 1) hm.2.2.2 (by omega)] at hq
          exact absurd hq.symm hn.2.2.1
      subst hkq
      have hv : v = u := by simpa [Memory.read] using h k
      subst hv
      congr 1
      refine ih rest' (k + 1) hm.2.2.2 hn.2.2.2 (fun a => ?_)
      by_cases hak : k = a
      · subst hak
        rw [Memory.read_below rom rest k (k + 1) hm.2.2.2 (by omega),
          Memory.read_below rom rest' k (k + 1) hn.2.2.2 (by omega)]
      · simpa [Memory.read, hak] using h a

/-! The machine's accesses -/

/-- MemRead depends on the parameters and memory only. -/
theorem State.memRead_congr {s t : State} (hp : t.params = s.params) (hm : t.mem = s.mem) (a : Nat) :
    t.memRead a = s.memRead a := by
  simp only [State.memRead, hp, hm]

/-- MemRead takes its address mod 4096 (20_memory.md R51). -/
theorem State.memRead_cell (s : State) {a b : Nat} (h : cellOf a = cellOf b) : s.memRead a = s.memRead b := by
  simp only [State.memRead, h]

/-- MemRead after MemWrite (20_memory.md R51, R60). -/
theorem State.memRead_memWrite (s : State) (a c : Nat) (b : Byte) :
    (s.memWrite a b).memRead c = if cellOf c = cellOf a then b else s.memRead c := by
  simp only [State.memRead, State.memWrite_params, State.memWrite_mem]
  split
  · next h => rw [h, Memory.read_write_same]
  · next h => exact Memory.read_write_other _ _ _ h

/-- MemWrite keeps the canonical form. -/
theorem State.wf_memWrite (s : State) (a : Nat) (b : Byte) (h : Memory.wf s.params.fontRom s.mem = true) :
    Memory.wf (s.memWrite a b).params.fontRom (s.memWrite a b).mem = true :=
  Memory.wf_write _ _ _ _ (cellOf_lt a) h

/-! A run of stores -/

/-- Stores change memory only. -/
theorem State.memWrites_frame (s : State) (a : Nat) (bytes : List Byte) :
    s.memWrites a bytes = { s with mem := (s.memWrites a bytes).mem } := by
  induction bytes generalizing s a with
  | nil => rfl
  | cons b rest ih =>
    have h := ih (s.memWrite a b) (a + 1)
    unfold State.memWrites
    rw [h]
    rfl

/-- Stores keep the canonical form. -/
theorem State.wf_memWrites (s : State) (a : Nat) (bytes : List Byte) (h : Memory.wf s.params.fontRom s.mem = true) :
    Memory.wf s.params.fontRom (s.memWrites a bytes).mem = true := by
  induction bytes generalizing s a with
  | nil => exact h
  | cons b rest ih => exact ih (s.memWrite a b) (a + 1) (s.wf_memWrite a b h)

/-- A cell that none of the stores reaches reads as before. -/
theorem State.memRead_memWrites_other (s : State) (a : Nat) (bytes : List Byte) (c : Nat)
    (h : ∀ k, k < bytes.length → cellOf c ≠ cellOf (a + k)) : (s.memWrites a bytes).memRead c = s.memRead c := by
  induction bytes generalizing s a with
  | nil => rfl
  | cons b rest ih =>
    unfold State.memWrites
    rw [ih (s.memWrite a b) (a + 1), State.memRead_memWrite, if_neg (by simpa using h 0 (by simp))]
    intro k hk
    have := h (k + 1) (by simpa using hk)
    rwa [show a + 1 + k = a + (k + 1) by omega]

/-- Each of at most 4096 stored bytes is read back from its own cell. -/
theorem State.memRead_memWrites (s : State) (a : Nat) (bytes : List Byte) (hl : bytes.length ≤ 4096) (k : Nat)
    (hk : k < bytes.length) : (s.memWrites a bytes).memRead (a + k) = bytes[k] := by
  induction bytes generalizing s a k with
  | nil => simp at hk
  | cons b rest ih =>
    unfold State.memWrites
    simp only [List.length_cons] at hl hk
    cases k with
    | zero =>
      rw [State.memRead_memWrites_other, State.memRead_memWrite, if_pos (by simp)]
      · rfl
      · intro j hj
        rw [show a + 1 + j = a + (j + 1) by omega]
        exact cellOf_add_ne (by omega) (by omega)
    | succ k =>
      rw [show a + (k + 1) = a + 1 + k by omega, ih _ _ (by omega) k (by omega)]
      rfl

end Sys2Proof.Machine
end

