-- ==== Sys2Proof/Laws/Ops.lean ====
section
/-! SUPPORT. What each shared operation on registers, PC, flags, keys and the framebuffer can do, said once. -/

namespace Sys2Proof.Machine

/-! Registers -/

/-- V[y] depends on the register file only. -/
theorem State.reg_congr {s t : State} (h : t.v = s.v) (y : RegIdx) : t.reg y = s.reg y := by
  simp only [State.reg, h]

/-- V[y] after V[x] <- b (10_state.md R20). -/
@[simp] theorem State.reg_setReg (s : State) (x y : RegIdx) (b : Byte) :
    (s.setReg x b).reg y = if x = y then b else s.reg y := by
  simp only [State.reg, State.setReg_v, Vector.getElem_set, BitVec.toNat_inj]

theorem State.reg_setReg_same (s : State) (x : RegIdx) (b : Byte) : (s.setReg x b).reg x = b := by simp

theorem State.reg_setReg_other (s : State) {x y : RegIdx} (b : Byte) (h : y ≠ x) : (s.setReg x b).reg y = s.reg y := by
  simp [Ne.symm h]

/-- Register files that agree on every index are the same. -/
theorem State.v_ext {s t : State} (h : ∀ y, t.reg y = s.reg y) : t.v = s.v := by
  apply Vector.ext
  intro k hk
  have := h (BitVec.ofNat 4 k)
  simpa [State.reg, Nat.mod_eq_of_lt hk] using this

/-! PC -/

/-- Every write of PC is mod 4096 (10_state.md R24). -/
@[simp] theorem State.setPc_pc_toNat (s : State) (a : Nat) : (s.setPc a).pc.toNat = a % 4096 := by
  simp only [State.setPc_pc, BitVec.toNat_ofNat]; omega

@[simp] theorem State.finishAt_pc_toNat (s : State) (a : Nat) : (s.finishAt a).pc.toNat = a % 4096 :=
  State.setPc_pc_toNat s a

@[simp] theorem State.finish_pc_toNat (s : State) (k : Nat) : (s.finish k).pc.toNat = (s.pc.toNat + k) % 4096 :=
  State.setPc_pc_toNat s (s.pc.toNat + k)

/-- The end of an instruction touches PC and step_result only. -/
theorem State.finishAt_frame (s : State) (a : Nat) :
    s.finishAt a = { s with pc := (s.finishAt a).pc, stepResult := some .executed } := rfl

theorem State.finish_frame (s : State) (k : Nat) :
    s.finish k = { s with pc := (s.finish k).pc, stepResult := some .executed } := rfl

/-- An instruction that changed the register file only, ended. -/
theorem State.finish_after_v {s u : State} (h : u = { s with v := u.v }) (k : Nat) :
    (u.finish k).pc.toNat = (s.pc.toNat + k) % 4096 ∧
    u.finish k =
      { s with v := (u.finish k).v, pc := (u.finish k).pc, stepResult := (u.finish k).stepResult } ∧
    ∀ a, (u.finish k).memRead a = s.memRead a := by
  generalize u.v = w at h
  subst h
  exact ⟨State.finish_pc_toNat _ k, rfl, fun _ => rfl⟩

/-- An instruction that changed memory only, ended. -/
theorem State.finish_after_mem {s u : State} (h : u = { s with mem := u.mem }) (k : Nat) :
    (u.finish k).pc.toNat = (s.pc.toNat + k) % 4096 ∧
    u.finish k =
      { s with mem := (u.finish k).mem, pc := (u.finish k).pc, stepResult := (u.finish k).stepResult } := by
  generalize u.mem = m at h
  subst h
  exact ⟨State.finish_pc_toNat _ k, rfl⟩

/-! The ALU -/

/-- All that the ALU's write can do: the register file, V[x] and then VF (41_alu.md R122). -/
theorem State.applyAlu_spec (s : State) (f : AluFn) (x : RegIdx) (b : Byte) :
    s.applyAlu f x b = { s with v := (s.applyAlu f x b).v } ∧
    (∀ c, aluFlag f (s.reg x) b = some c → (s.applyAlu f x b).reg vF = flagByte c) ∧
    ((aluFlag f (s.reg x) b = none ∨ x ≠ vF) → (s.applyAlu f x b).reg x = aluResult f (s.reg x) b) ∧
    (∀ y, y ≠ x → (aluFlag f (s.reg x) b = none ∨ y ≠ vF) → (s.applyAlu f x b).reg y = s.reg y) := by
  unfold State.applyAlu
  cases h : aluFlag f (s.reg x) b with
  | none =>
    simp only [State.setFlagOpt]
    refine ⟨rfl, ?_, ?_, ?_⟩
    · simp
    · simp
    · intro y hy _; exact State.reg_setReg_other _ _ hy
  | some c =>
    simp only [State.setFlagOpt, State.setFlag]
    refine ⟨rfl, ?_, ?_, ?_⟩
    · intro c' hc; cases hc; simp
    · intro hx
      rcases hx with hx | hx
      · cases hx
      · rw [State.reg_setReg_other _ _ hx, State.reg_setReg_same]
    · intro y hy hv
      rcases hv with hv | hv
      · cases hv
      · rw [State.reg_setReg_other _ _ hv, State.reg_setReg_other _ _ hy]

@[simp] theorem flagByte_true : flagByte true = 1#8 := rfl

@[simp] theorem flagByte_false : flagByte false = 0#8 := rfl

/-! The register block of FX65 -/

/-- Loads change the register file only, and each one reads the memory and I of the start (42_index_memory.md R155). -/
theorem State.loads_frame (s : State) (ks : List Nat) :
    ks.foldl State.loadIndexed s = { s with v := (ks.foldl State.loadIndexed s).v } := by
  induction ks generalizing s with
  | nil => rfl
  | cons k rest ih =>
    have h := ih (s.loadIndexed k)
    simp only [List.foldl_cons]
    rw [h]
    rfl

/-- V[y] after the loads of the indices below n. -/
theorem State.reg_loads (s : State) (n : Nat) (hn : n ≤ 16) (y : RegIdx) :
    ((List.range n).foldl State.loadIndexed s).reg y =
      if y.toNat < n then s.memRead (s.i.toNat + y.toNat) else s.reg y := by
  induction n with
  | zero => simp
  | succ n ih =>
    rw [List.range_succ, List.foldl_append, List.foldl_cons, List.foldl_nil]
    have hf := State.loads_frame s (List.range n)
    generalize hu : (List.range n).foldl State.loadIndexed s = u at hf ih
    have hi : u.i = s.i := by rw [hf]
    have hm : ∀ a, u.memRead a = s.memRead a := State.memRead_congr (by rw [hf]) (by rw [hf])
    have hy := y.isLt
    unfold State.loadIndexed
    rw [State.reg_setReg, ih (by omega), hi, hm]
    by_cases h : BitVec.ofNat 4 n = y
    · have hn' : y.toNat = n := by rw [← h, BitVec.toNat_ofNat]; omega
      rw [if_pos h, if_pos (by omega), hn']
    · have hn' : y.toNat ≠ n := fun e => h (by rw [← e]; simp)
      rw [if_neg h]
      by_cases hl : y.toNat < n
      · rw [if_pos hl, if_pos (by omega)]
      · rw [if_neg hl, if_neg (by omega)]

/-! Keys -/

@[simp] theorem mem_allKeys (k : KeyIdx) : k ∈ allKeys := by
  simp only [allKeys, List.mem_map, List.mem_range]
  exact ⟨k.toNat, k.isLt, by simp⟩

/-- The pressed keys are listed in ascending order. -/
theorem allKeys_sorted : allKeys.Pairwise (fun a b => a.toNat < b.toNat) := by decide

/-- The qualifying keys of R195, as a condition on one key. -/
theorem mem_qualifying (t : KeyTrigger) (prev now : Keys) (k : KeyIdx) :
    k ∈ Keys.qualifying t prev now ↔ now.down k = true ∧ (t = .edge → prev.down k = false) := by
  cases t <;> simp [Keys.qualifying, Keys.newlyPressed, Keys.pressed]

/-- The qualifying keys are listed in ascending order. -/
theorem qualifying_sorted (t : KeyTrigger) (prev now : Keys) :
    (Keys.qualifying t prev now).Pairwise (fun a b => a.toNat < b.toNat) := by
  cases t
  · exact allKeys_sorted.filter (fun k => now.down k && !prev.down k)
  · exact allKeys_sorted.filter (fun k => now.down k)

/-- All that taking a key can do: V[x] receives a key of the list, its first one with FX0A_KEY_CHOICE = lowest, and PC
advances (44_keys_timers.md R196). -/
theorem State.takeKey_spec (s : State) (x : RegIdx) (k : KeyIdx) (rest : List KeyIdx) :
    ∃ j ∈ k :: rest, (s.params.fx0aKeyChoice = .lowest → j = k) ∧
      s.takeKey x k rest =
        { (s.setReg x (j.setWidth 8)).finish 2 with draws := (s.takeKey x k rest).draws } := by
  unfold State.takeKey
  cases s.params.fx0aKeyChoice with
  | lowest => exact ⟨k, by simp, fun _ => rfl, rfl⟩
  | any =>
    refine ⟨(k :: rest).getD (Config.keyPick s.draws % (rest.length + 1)) k, ?_, by simp, rfl⟩
    have h : Config.keyPick s.draws % (rest.length + 1) < (k :: rest).length := Nat.mod_lt _ (by simp)
    rw [List.getD_eq_getElem _ _ h]
    exact List.getElem_mem h

/-! The framebuffer -/

@[simp] theorem Framebuffer.length_put (p : Params) (fb : Framebuffer) (c r : Nat) (b : Bool) :
    (Framebuffer.put p fb c r b).length = fb.length := List.length_set

/-- Two pixels inside the geometry are the same element only if they are the same pixel (10_state.md R35). -/
theorem pixelIndex_inj (p : Params) {c r c' r' : Nat} (hc : c < p.displayW) (hc' : c' < p.displayW)
    (h : pixelIndex p c r = pixelIndex p c' r') : c = c' ∧ r = r' := by
  unfold pixelIndex at h
  have hw : 0 < p.displayW := by omega
  have h1 : c = c' := by
    have := congrArg (· % p.displayW) h
    simpa [Nat.add_mod, Nat.mod_eq_of_lt hc, Nat.mod_eq_of_lt hc'] using this
  subst h1
  exact ⟨rfl, Nat.eq_of_mul_eq_mul_right hw (by omega)⟩

/-- An element inside the geometry is inside a framebuffer of its size. -/
theorem pixelIndex_lt (p : Params) {c r : Nat} (hc : c < p.displayW) (hr : r < p.displayH) :
    pixelIndex p c r < p.displayW * p.displayH := by
  unfold pixelIndex
  calc r * p.displayW + c < r * p.displayW + p.displayW := by omega
    _ = (r + 1) * p.displayW := by rw [Nat.succ_mul]
    _ ≤ p.displayH * p.displayW := Nat.mul_le_mul_right _ hr
    _ = p.displayW * p.displayH := Nat.mul_comm _ _

/-- Pix after SetPix, inside the geometry. -/
theorem Framebuffer.get_put (p : Params) (fb : Framebuffer) (hl : fb.length = p.displayW * p.displayH) {c r c' r' : Nat}
    (b : Bool) (hc : c < p.displayW) (hr : r < p.displayH) (hc' : c' < p.displayW) :
    Framebuffer.get p (Framebuffer.put p fb c r b) c' r' =
      if c' = c ∧ r' = r then b else Framebuffer.get p fb c' r' := by
  unfold Framebuffer.get Framebuffer.put
  have hlt := pixelIndex_lt p hc hr
  by_cases h : c' = c ∧ r' = r
  · obtain ⟨rfl, rfl⟩ := h
    rw [if_pos ⟨rfl, rfl⟩]
    simp [List.getD_eq_getElem?_getD, hl, hlt]
  · rw [if_neg h]
    have hne : pixelIndex p c r ≠ pixelIndex p c' r' := fun e => by
      have := pixelIndex_inj p hc hc' e
      exact h ⟨this.1.symm, this.2.symm⟩
    simp [List.getD_eq_getElem?_getD, List.getElem?_set_ne hne]

/-- Framebuffers of the geometry's size that agree on every pixel inside it are the same list. -/
theorem Framebuffer.ext_pix (p : Params) (f g : Framebuffer) (hf : f.length = p.displayW * p.displayH)
    (hg : g.length = p.displayW * p.displayH)
    (h : ∀ c r, c < p.displayW → r < p.displayH → Framebuffer.get p f c r = Framebuffer.get p g c r) : f = g := by
  apply List.ext_getElem (by rw [hf, hg])
  intro k hkf hkg
  rw [hf] at hkf
  have hw : 0 < p.displayW := Nat.pos_of_ne_zero (fun e => by simp [e] at hkf)
  have hr : k / p.displayW < p.displayH := Nat.div_lt_of_lt_mul hkf
  have hk := h (k % p.displayW) (k / p.displayW) (Nat.mod_lt _ hw) hr
  have hidx : pixelIndex p (k % p.displayW) (k / p.displayW) = k := by
    unfold pixelIndex; rw [Nat.mul_comm]; exact Nat.div_add_mod k p.displayW
  unfold Framebuffer.get at hk
  rw [hidx] at hk
  simpa [List.getD_eq_getElem?_getD, hf, hg, hkf] using hk

/-- A row of a sprite keeps the framebuffer's size. -/
theorem length_drawRow (p : Params) (cx cy : Nat) (byteOf : Nat → Byte) (acc : Framebuffer × Bool) (row : Nat) :
    (drawRow p cx cy byteOf acc row).1.length = acc.1.length := by
  unfold drawRow
  generalize List.range 8 = bits
  induction bits generalizing acc with
  | nil => rfl
  | cons b rest ih =>
    rw [List.foldl_cons, ih]
    split <;> simp [togglePixel]

/-- A sprite keeps the framebuffer's size. -/
theorem State.length_drawSprite (s : State) (cx cy n : Nat) : (s.drawSprite cx cy n).1.length = s.fb.length := by
  unfold State.drawSprite
  suffices h : ∀ (rows : List Nat) (acc : Framebuffer × Bool),
      (rows.foldl (drawRow s.params cx cy s.spriteByte) acc).1.length = acc.1.length from h _ _
  intro rows
  induction rows with
  | nil => intro acc; rfl
  | cons r rest ih => intro acc; rw [List.foldl_cons, ih, length_drawRow]

/-- The check before DXYN's first write is R172's condition. -/
theorem State.rowOutOfRange_iff (s : State) (cy n : Nat) : s.rowOutOfRange cy n = true ↔ s.drawsPastLastRow cy n := by
  unfold State.rowOutOfRange State.drawsPastLastRow
  simp

/-! Fault codes -/

/-- The numbers of 60_exceptions.md R211 tell the core faults apart. -/
theorem Fault.code_inj {c d : Fault} (h : c.code = d.code) : c = d := by
  revert h; cases c <;> cases d <;> decide

/-- No core fault has the number of a failed load (60_exceptions.md R211). -/
theorem Fault.code_ne_load (c : Fault) (r : LoadResult) : r.code ≠ some c.code := by
  cases c <;> cases r <;> decide

/-! Timers -/

theorem tickDown_toNat (b : Byte) : (tickDown b).toNat = b.toNat - 1 := by
  unfold tickDown
  split
  · next h => simp [h]
  · next h =>
    have : b.toNat ≠ 0 := fun e => h (BitVec.eq_of_toNat_eq (by simpa using e))
    have := b.isLt
    rw [BitVec.toNat_sub]
    simp only [BitVec.toNat_ofNat]
    omega

theorem expiries_eq (b : Byte) : expiries b = if b.toNat = 1 then 1 else 0 := by
  unfold expiries
  have : b = 1#8 ↔ b.toNat = 1 := ⟨fun h => by simp [h], fun h => BitVec.eq_of_toNat_eq (by simpa using h)⟩
  simp only [this]

/-- A tick touches the timers and their events only (60_exceptions.md R222). -/
theorem State.tickTimers_frame (s : State) :
    s.tickTimers =
      { s with dt := s.tickTimers.dt, st := s.tickTimers.st, dtExpired := s.tickTimers.dtExpired,
               stExpired := s.tickTimers.stExpired } := rfl

end Sys2Proof.Machine
end

