-- ==== Sys2Proof/Laws/PerInstr.lean ====
section
/-! SUPPORT. The family TableRow, about every instruction as syntax: the word of an instruction lies in its row of
opcode_table.json, (w & mask) = match (30_encoding.md R85). -/

namespace Sys2Proof.Laws.TableRow

open Sys2Proof BitVec

/-- The mask and match columns of opcode_table.json. -/
def tableRow (i : Instr) : Word × Word :=
  match i with
  | .cls => (0xFFFF, 0x00E0)
  | .ret => (0xFFFF, 0x00EE)
  | .sys _ => (0xF000, 0x0000)
  | .jp _ => (0xF000, 0x1000)
  | .call _ => (0xF000, 0x2000)
  | .seImm _ _ => (0xF000, 0x3000)
  | .sneImm _ _ => (0xF000, 0x4000)
  | .seReg _ _ => (0xF00F, 0x5000)
  | .ldImm _ _ => (0xF000, 0x6000)
  | .addImm _ _ => (0xF000, 0x7000)
  | .ldReg _ _ => (0xF00F, 0x8000)
  | .orReg _ _ => (0xF00F, 0x8001)
  | .andReg _ _ => (0xF00F, 0x8002)
  | .xorReg _ _ => (0xF00F, 0x8003)
  | .addReg _ _ => (0xF00F, 0x8004)
  | .sub _ _ => (0xF00F, 0x8005)
  | .shr _ _ => (0xF00F, 0x8006)
  | .subn _ _ => (0xF00F, 0x8007)
  | .shl _ _ => (0xF00F, 0x800E)
  | .sneReg _ _ => (0xF00F, 0x9000)
  | .ldI _ => (0xF000, 0xA000)
  | .jpV0 _ => (0xF000, 0xB000)
  | .rnd _ _ => (0xF000, 0xC000)
  | .drw _ _ _ => (0xF000, 0xD000)
  | .skp _ => (0xF0FF, 0xE09E)
  | .sknp _ => (0xF0FF, 0xE0A1)
  | .ldVxDt _ => (0xF0FF, 0xF007)
  | .ldVxK _ => (0xF0FF, 0xF00A)
  | .ldDt _ => (0xF0FF, 0xF015)
  | .ldSt _ => (0xF0FF, 0xF018)
  | .addI _ => (0xF0FF, 0xF01E)
  | .ldF _ => (0xF0FF, 0xF029)
  | .ldB _ => (0xF0FF, 0xF033)
  | .stI _ => (0xF0FF, 0xF055)
  | .ldVxI _ => (0xF0FF, 0xF065)

/-- The word of the instruction selects its row. -/
def Statement (i : Instr) : Prop := encode i &&& (tableRow i).1 = (tableRow i).2

/-! What each mask leaves of each format -/

theorem fmtNNN_row (op : Nibble) (nnn : Addr) : fmtNNN op nnn &&& 0xF000#16 = fmtNNN op 0 := by
  have h := and_append (x₁ := op) (y₁ := nnn) (x₂ := 0xF#4) (y₂ := 0x000#12)
  have h2 : op &&& 0xF#4 = op := and_allOnes
  rw [h2, and_zero] at h
  exact h

theorem fmtXNN_row (op : Nibble) (x : RegIdx) (nn : Byte) : fmtXNN op x nn &&& 0xF000#16 = fmtXNN op 0 0 := by
  have hi := and_append (x₁ := op) (y₁ := x) (x₂ := 0xF#4) (y₂ := 0x0#4)
  have h := and_append (x₁ := (op ++ x : Byte)) (y₁ := nn) (x₂ := 0xF0#8) (y₂ := 0x00#8)
  have h2 : op &&& 0xF#4 = op := and_allOnes
  rw [h2, and_zero] at hi
  rw [and_zero] at h
  exact h.trans (congrArg (fun b : Byte => (b ++ 0#8 : Word)) hi)

theorem fmtXNN_rowFF (op : Nibble) (x : RegIdx) (nn : Byte) : fmtXNN op x nn &&& 0xF0FF#16 = fmtXNN op 0 nn := by
  have hi := and_append (x₁ := op) (y₁ := x) (x₂ := 0xF#4) (y₂ := 0x0#4)
  have h := and_append (x₁ := (op ++ x : Byte)) (y₁ := nn) (x₂ := 0xF0#8) (y₂ := 0xFF#8)
  have h2 : op &&& 0xF#4 = op := and_allOnes
  have h3 : nn &&& 0xFF#8 = nn := and_allOnes
  rw [h2, and_zero] at hi
  rw [h3] at h
  exact h.trans (congrArg (fun b : Byte => (b ++ nn : Word)) hi)

theorem fmtXYN_row (op : Nibble) (x y : RegIdx) (n : Nibble) : fmtXYN op x y n &&& 0xF00F#16 = fmtXYN op 0 0 n := by
  have hi := and_append (x₁ := op) (y₁ := x) (x₂ := 0xF#4) (y₂ := 0x0#4)
  have lo := and_append (x₁ := y) (y₁ := n) (x₂ := 0x0#4) (y₂ := 0xF#4)
  have h := and_append (x₁ := (op ++ x : Byte)) (y₁ := (y ++ n : Byte)) (x₂ := 0xF0#8) (y₂ := 0x0F#8)
  have h2 : op &&& 0xF#4 = op := and_allOnes
  have h3 : n &&& 0xF#4 = n := and_allOnes
  rw [h2, and_zero] at hi
  rw [h3, and_zero] at lo
  exact h.trans (congrArg₂ (fun b c : Byte => (b ++ c : Word)) hi lo)

/-! One lemma per instruction -/

theorem cls : Statement .cls := rfl
theorem ret : Statement .ret := rfl
theorem sys (nnn : Addr) : Statement (.sys nnn) := fmtNNN_row 0x0 nnn
theorem jp (nnn : Addr) : Statement (.jp nnn) := fmtNNN_row 0x1 nnn
theorem call (nnn : Addr) : Statement (.call nnn) := fmtNNN_row 0x2 nnn
theorem seImm (x : RegIdx) (nn : Byte) : Statement (.seImm x nn) := fmtXNN_row 0x3 x nn
theorem sneImm (x : RegIdx) (nn : Byte) : Statement (.sneImm x nn) := fmtXNN_row 0x4 x nn
theorem seReg (x : RegIdx) (y : RegIdx) : Statement (.seReg x y) := fmtXYN_row 0x5 x y 0x0
theorem ldImm (x : RegIdx) (nn : Byte) : Statement (.ldImm x nn) := fmtXNN_row 0x6 x nn
theorem addImm (x : RegIdx) (nn : Byte) : Statement (.addImm x nn) := fmtXNN_row 0x7 x nn
theorem ldReg (x : RegIdx) (y : RegIdx) : Statement (.ldReg x y) := fmtXYN_row 0x8 x y 0x0
theorem orReg (x : RegIdx) (y : RegIdx) : Statement (.orReg x y) := fmtXYN_row 0x8 x y 0x1
theorem andReg (x : RegIdx) (y : RegIdx) : Statement (.andReg x y) := fmtXYN_row 0x8 x y 0x2
theorem xorReg (x : RegIdx) (y : RegIdx) : Statement (.xorReg x y) := fmtXYN_row 0x8 x y 0x3
theorem addReg (x : RegIdx) (y : RegIdx) : Statement (.addReg x y) := fmtXYN_row 0x8 x y 0x4
theorem sub (x : RegIdx) (y : RegIdx) : Statement (.sub x y) := fmtXYN_row 0x8 x y 0x5
theorem shr (x : RegIdx) (y : RegIdx) : Statement (.shr x y) := fmtXYN_row 0x8 x y 0x6
theorem subn (x : RegIdx) (y : RegIdx) : Statement (.subn x y) := fmtXYN_row 0x8 x y 0x7
theorem shl (x : RegIdx) (y : RegIdx) : Statement (.shl x y) := fmtXYN_row 0x8 x y 0xE
theorem sneReg (x : RegIdx) (y : RegIdx) : Statement (.sneReg x y) := fmtXYN_row 0x9 x y 0x0
theorem ldI (nnn : Addr) : Statement (.ldI nnn) := fmtNNN_row 0xA nnn
theorem jpV0 (nnn : Addr) : Statement (.jpV0 nnn) := fmtNNN_row 0xB nnn
theorem rnd (x : RegIdx) (nn : Byte) : Statement (.rnd x nn) := fmtXNN_row 0xC x nn
theorem drw (x : RegIdx) (y : RegIdx) (n : Nibble) : Statement (.drw x y n) := fmtXNN_row 0xD x (y ++ n : Byte)
theorem skp (x : RegIdx) : Statement (.skp x) := fmtXNN_rowFF 0xE x 0x9E
theorem sknp (x : RegIdx) : Statement (.sknp x) := fmtXNN_rowFF 0xE x 0xA1
theorem ldVxDt (x : RegIdx) : Statement (.ldVxDt x) := fmtXNN_rowFF 0xF x 0x07
theorem ldVxK (x : RegIdx) : Statement (.ldVxK x) := fmtXNN_rowFF 0xF x 0x0A
theorem ldDt (x : RegIdx) : Statement (.ldDt x) := fmtXNN_rowFF 0xF x 0x15
theorem ldSt (x : RegIdx) : Statement (.ldSt x) := fmtXNN_rowFF 0xF x 0x18
theorem addI (x : RegIdx) : Statement (.addI x) := fmtXNN_rowFF 0xF x 0x1E
theorem ldF (x : RegIdx) : Statement (.ldF x) := fmtXNN_rowFF 0xF x 0x29
theorem ldB (x : RegIdx) : Statement (.ldB x) := fmtXNN_rowFF 0xF x 0x33
theorem stI (x : RegIdx) : Statement (.stI x) := fmtXNN_rowFF 0xF x 0x55
theorem ldVxI (x : RegIdx) : Statement (.ldVxI x) := fmtXNN_rowFF 0xF x 0x65

end Sys2Proof.Laws.TableRow
end

