-- ==== Sys2Proof/Laws/Step.lean ====
section
/-! SUPPORT. What a step of the machine is, and the three kinds of next state a meaning can answer. -/

namespace Sys2Proof.Machine

/-- A step is the next transaction, on the state with it taken off the schedule; with an empty schedule nothing is
taken off (log entry 6). -/
theorem step_eq_portStep (s : State) : step s = portStep s.nextOp s.taken := by
  unfold step nextTransaction State.nextOp State.taken
  cases h : s.schedule with
  | nil =>
    have e : { s with schedule := [].tail } = s := by rw [List.tail_nil, ← h]
    simp only [List.headD_nil, e]
  | cons op rest => rfl

/-- A step that is offered a transaction performs it, and no other is pending after it is taken (00_scope.md R12). -/
theorem step_offered (s : State) (op : PortOp) : step (s.offered op) = portStep op { s with schedule := [] } :=
  step_eq_portStep (s.offered op)

/-- A transaction after the first reset is the transaction itself. -/
@[simp] theorem afterReset_of_initialised {s : State} (h : s.initialised = true) (r : Result) : afterReset s r = r := by
  simp [afterReset, h]

/-- The initialised machine's step(), by run state (40_control_flow.md R100). -/
theorem step_of_nextOp_step {s : State} (h : s.initialised = true) (hop : s.nextOp = .step) :
    step s = instructionStep s.taken := by
  rw [step_eq_portStep, hop]
  exact afterReset_of_initialised h _

/-- All that a meaning's next state can be: a core fault at the instruction's word, the wait of FX0A, or an instruction
that ended, after writes to the fields named and no other (10_state.md R25; 60_exceptions.md R212). -/
theorem exec_kinds (i : Instr) (s t : State) (h : exec i s = .next t) :
    (∃ c, t = s.raiseFault c (encode i)) ∨ (∃ x, i = .ldVxK x ∧ t = s.waitForKey x) ∨
    (∃ (u : State) (a : Nat), t = u.finishAt a ∧
      u = { s with v := u.v, i := u.i, stack := u.stack, dt := u.dt, st := u.st, mem := u.mem, fb := u.fb,
                   frameReady := u.frameReady, draws := u.draws }) := by
  cases i
  case ret =>
    simp only [exec, execRet] at h
    split at h <;> cases h
    · exact .inl ⟨_, rfl⟩
    · exact .inr (.inr ⟨_, _, rfl, rfl⟩)
  case call nnn =>
    simp only [exec, execCall] at h
    split at h <;> cases h
    · exact .inl ⟨_, rfl⟩
    · exact .inr (.inr ⟨_, _, rfl, rfl⟩)
  case drw x y n =>
    simp only [exec, execDrw] at h
    split at h <;> cases h
    · exact .inl ⟨_, rfl⟩
    · exact .inr (.inr ⟨_, _, rfl, rfl⟩)
  case ldVxK x =>
    simp only [exec, execLdVxK] at h
    split at h <;> cases h
    · exact .inr (.inl ⟨x, rfl, rfl⟩)
    · obtain ⟨j, _, _, e⟩ := State.takeKey_spec s x _ _
      rw [e]
      exact .inr (.inr ⟨{ s.setReg x (j.setWidth 8) with draws := (s.takeKey x _ _).draws }, _, rfl, rfl⟩)
  case ldB x =>
    cases h
    exact .inr (.inr ⟨_, _, rfl, by rw [State.memWrites_frame]⟩)
  case stI x =>
    cases h
    exact .inr (.inr ⟨_, _, rfl, by rw [State.memWrites_frame]⟩)
  case ldVxI x =>
    cases h
    have e : s.loadBlock x = { s with v := (s.loadBlock x).v } := State.loads_frame s _
    exact .inr (.inr ⟨_, _, rfl, by rw [e]⟩)
  all_goals (cases h; exact .inr (.inr ⟨_, _, rfl, rfl⟩))

end Sys2Proof.Machine
end

