-- ==== Sys2Proof/Tests/Slice0.lean ====
section
/-! SUPPORT. The model's own tests: words written out from the opcode table, vectors of 95_test_vectors.md (named in
each comment), and, for every obligation with hypotheses, a witness that meets them together. -/

namespace Sys2Proof.Tests

open Sys2Proof Sys2Proof.Machine

/-! Helpers -/

/-- The next state of an answer; d where it is none. -/
def nextOf (d : State) : Result → State
  | .next t => t
  | .fault _ => d
  | .refused _ => d

/-- The answer is a next state. -/
def isNext : Result → Bool
  | .next _ => true
  | .fault _ => false
  | .refused _ => false

theorem eq_next {r : Result} (d : State) (h : isNext r = true) : r = .next (nextOf d r) := by
  cases r with
  | next t => rfl
  | fault c => cases h
  | refused c => cases h

/-- The state after the word w, placed at PC, is stepped. -/
def run (w : Nat) (s : State) : State := nextOf s (step (s.withFetchWord 16 w))

/-- The state after one step. -/
def go (s : State) : State := nextOf s (step s)

/-- The reset state with registers loaded. -/
def regs (l : List (RegIdx × Byte)) : State := l.foldl (fun s p => s.setReg p.1 p.2) State.reset

/-- A key vector with the listed keys pressed. -/
def keysDown (l : List Nat) : Keys := Vector.ofFn (fun k => l.contains k.val)

/-- A state with cells set. -/
def cells (l : List (Nat × Byte)) (s : State) : State := l.foldl (fun s p => s.memWrite p.1 p.2) s

/-- A state with ROW_WRAP = lineage. -/
def lineage (s : State) : State := { s with params := { s.params with rowWrap := .lineage } }

/-- A state with FX0A_TRIGGER = level. -/
def levelKeys (s : State) : State := { s with params := { s.params with fx0aTrigger := .level } }

/-- A state with STACK_LIMIT = n. -/
def limit (n : Nat) (s : State) : State := { s with params := { s.params with stackLimit := some n } }

/-- PC and V[x]. -/
def pcAnd (x : RegIdx) (s : State) : Nat × Nat := (s.pc.toNat, (s.reg x).toNat)

/-! WellFormed refuses each term that has no encoding: 0x0000 is Unknown, 0x00E0 is CLS, 0x00EE is RET (R76, R85) -/

theorem test_wf_refuses_sys_000 : (Instr.sys 0x000#12).wf = false := by decide

theorem test_wf_refuses_sys_0E0 : (Instr.sys 0x0E0#12).wf = false := by decide

theorem test_wf_refuses_sys_0EE : (Instr.sys 0x0EE#12).wf = false := by decide

/-! Every constructor's word, written out from its pattern and bit fields in opcode_table.json -/

/-- The word decodes to the instruction, the instruction is well-formed and encodes to the word. -/
def agrees (p : Word × Instr) : Bool :=
  decode p.1 == some p.2 && p.2.wf && encode p.2 == p.1 && decodeTableWord 16 p.1.toNat == some p.2

theorem test_words_control :
    ([(0b0000_0001_0010_0011#16, .sys 0x123), (0b0000_0000_1110_1110#16, .ret), (0b0001_0011_0000_0001#16, .jp 0x301),
      (0b0010_0010_0000_1010#16, .call 0x20A), (0b0011_0011_0001_0000#16, .seImm 0x3 0x10),
      (0b0100_1010_0001_0101#16, .sneImm 0xA 0x15), (0b0101_0001_0010_0000#16, .seReg 0x1 0x2),
      (0b1001_1010_1011_0000#16, .sneReg 0xA 0xB), (0b1011_1111_0001_0000#16, .jpV0 0xF10)] : List (Word × Instr)).all
      agrees = true := by decide

theorem test_words_alu :
    ([(0b0110_0010_0000_1010#16, .ldImm 0x2 0x0A), (0b0111_1111_1110_0001#16, .addImm 0xF 0xE1),
      (0b1000_0001_0010_0000#16, .ldReg 0x1 0x2), (0b1000_0011_0100_0001#16, .orReg 0x3 0x4),
      (0b1000_0101_0110_0010#16, .andReg 0x5 0x6), (0b1000_0111_1000_0011#16, .xorReg 0x7 0x8),
      (0b1000_1001_1010_0100#16, .addReg 0x9 0xA), (0b1000_1011_1100_0101#16, .sub 0xB 0xC),
      (0b1000_0010_0001_0110#16, .shr 0x2 0x1), (0b1000_1101_1110_0111#16, .subn 0xD 0xE),
      (0b1000_0001_0000_1110#16, .shl 0x1 0x0), (0b1100_0100_0000_1111#16, .rnd 0x4 0x0F)] : List (Word × Instr)).all
      agrees = true := by decide

theorem test_words_index_and_memory :
    ([(0b1010_0011_0000_0001#16, .ldI 0x301), (0b1111_0010_0001_1110#16, .addI 0x2), (0b1111_0011_0010_1001#16, .ldF 0x3),
      (0b1111_0100_0011_0011#16, .ldB 0x4), (0b1111_0101_0101_0101#16, .stI 0x5),
      (0b1111_1111_0110_0101#16, .ldVxI 0xF)] : List (Word × Instr)).all agrees = true := by decide

theorem test_words_display_keys_and_timers :
    ([(0b0000_0000_1110_0000#16, .cls), (0b1101_0001_0010_0011#16, .drw 0x1 0x2 0x3), (0b1110_0101_1001_1110#16, .skp 0x5),
      (0b1110_0110_1010_0001#16, .sknp 0x6), (0b1111_0001_0000_0111#16, .ldVxDt 0x1), (0b1111_0011_0000_1010#16, .ldVxK 0x3),
      (0b1111_0100_0001_0101#16, .ldDt 0x4), (0b1111_0101_0001_1000#16, .ldSt 0x5)] : List (Word × Instr)).all
      agrees = true := by decide

/-- Unknown words of every group (R75 to R81), the ones beside a defined word first. -/
theorem test_unknown_words :
    ([0x0000, 0x5121, 0x512F, 0x8128, 0x812D, 0x812F, 0x9AB1, 0x9AB7, 0xE09D, 0xE09F, 0xE0A0, 0xE0A2, 0xF006, 0xF008, 0xF009,
      0xF00B, 0xF014, 0xF019, 0xF064, 0xF066, 0xF0FF] : List Word).all (fun w => decode w == none) = true := by decide

/-- Bytes: exactly two are consumed; one is no instruction (R70). -/
theorem test_decode_bytes :
    decodeBytes [0x62, 0x0A, 0x12] = .ok (.ldImm 0x2 0x0A, [0x12]) ∧ decodeBytes [0x62] = .error .truncated ∧
    decodeBytes [0x51, 0x21] = .error (.unknownWord 0x5121) := by decide

/-! Control flow: vectors CF1 to CF20 -/

theorem test_sys_cf1 : (run 0x0123 State.reset).pc = 0x202#16 := by decide

theorem test_ret_cf3 :
    let t := run 0x00EE { State.reset with pc := 0x20C#16, stack := [0x206#12] }
    t.pc = 0x206#16 ∧ t.stack = [] := by decide

theorem test_ret_underflow_cf2 :
    let t := run 0x00EE State.reset
    t.run = .halted .stackUnderflow 0x00EE#16 ∧ t.stepResult = some (.fault .stackUnderflow) ∧ t.pc = 0x200#16 := by decide

theorem test_jp_to_odd_cf4 : (run 0x1301 State.reset).pc = 0x301#16 := by decide

theorem test_jp_self_loop_cf5 :
    (run 0x1200 State.reset).pc = 0x200#16 ∧ (run 0x1200 State.reset).stepResult = some .executed := by decide

theorem test_call_return_wraps_cf7 :
    let t := run 0x2300 { State.reset with pc := 0xFFE#16 }
    t.pc = 0x300#16 ∧ t.stack = [0x000#12] := by decide

theorem test_call_overflow_cf8 :
    let t := run 0x2300 (limit 1 { State.reset with stack := [0x202#12] })
    t.run = .halted .stackOverflow 0x2300#16 ∧ t.pc = 0x200#16 ∧ t.stack = [0x202#12] := by decide

theorem test_se_imm_cf10_cf11 :
    (run 0x3310 (regs [(3, 0x10)])).pc = 0x204#16 ∧ (run 0x3311 (regs [(3, 0x10)])).pc = 0x202#16 := by decide

theorem test_se_imm_wraps_cf12 : (run 0x3000 { State.reset with pc := 0xFFE#16 }).pc = 0x002#16 := by decide

theorem test_sne_imm_cf13 :
    (run 0x4310 (regs [(3, 0x10)])).pc = 0x202#16 ∧ (run 0x4311 (regs [(3, 0x10)])).pc = 0x204#16 := by decide

theorem test_se_reg_cf14 :
    (run 0x5010 { regs [(0, 5), (1, 5)] with pc := 0x206#16 }).pc = 0x20A#16 ∧
    (run 0x5010 (regs [(0, 5), (1, 6)])).pc = 0x202#16 := by decide

theorem test_sne_reg_cf15_cf16 :
    (run 0x9010 (regs [(0, 4), (1, 5)])).pc = 0x204#16 ∧ (run 0x9000 (regs [(0, 4)])).pc = 0x202#16 := by decide

theorem test_jp_v0_cf17_cf18 :
    (run 0xB300 (regs [(0, 0x04)])).pc = 0x304#16 ∧ (run 0xBF10 (regs [(0, 0xFF)])).pc = 0x00F#16 := by decide

theorem test_fetch_wraps_cf20 :
    let t := go (cells [(0xFFF, 0x60)] { State.reset with pc := 0xFFF#16 })
    t.reg 0 = 0xF0#8 ∧ t.pc = 0x001#16 := by decide

/-! ALU: vectors S3, S4, S11 and AL1 to AL25 -/

theorem test_ld_imm_s9 : pcAnd 2 (run 0x620A State.reset) = (0x202, 10) := by decide

theorem test_add_imm_al1_al2 :
    (let t := run 0x7001 (regs [(0, 0xFF), (0xF, 7)]); t.reg 0 = 0#8 ∧ t.reg 0xF = 7#8) ∧
    (run 0x7FFF (regs [(0xF, 0x01)])).reg 0xF = 0#8 := by decide

theorem test_ld_reg_s11_not_a_skip : pcAnd 0 (run 0x8010 (regs [(0, 1), (1, 2)])) = (0x202, 2) := by decide

theorem test_or_al5 :
    let t := run 0x8011 (regs [(0, 0x01), (1, 0x02), (0xF, 0x07)]); t.reg 0 = 0x03#8 ∧ t.reg 0xF = 0x07#8 := by decide

theorem test_and_al6 : (run 0x8012 (regs [(0, 0xF0), (1, 0x3C)])).reg 0 = 0x30#8 := by decide

theorem test_xor_al7 : (run 0x8013 (regs [(0, 0xFF), (1, 0x0F)])).reg 0 = 0xF0#8 := by decide

theorem test_add_reg_s3_al9 :
    (let t := run 0x8014 (regs [(0, 200), (1, 100)]); t.reg 0 = 44#8 ∧ t.reg 0xF = 1#8) ∧
    (let t := run 0x8014 (regs [(0, 0x7F), (1, 0x80)]); t.reg 0 = 0xFF#8 ∧ t.reg 0xF = 0#8) := by decide

theorem test_add_reg_flag_last_al10_al11 :
    (run 0x8FF4 (regs [(0xF, 0x80)])).reg 0xF = 1#8 ∧ (run 0x8F04 (regs [(0xF, 0xFF), (0, 1)])).reg 0xF = 1#8 := by decide

theorem test_sub_s4_al12 :
    (let t := run 0x8015 (regs [(0, 5), (1, 10)]); t.reg 0 = 251#8 ∧ t.reg 0xF = 0#8) ∧
    (let t := run 0x8015 (regs [(0, 7), (1, 7)]); t.reg 0 = 0#8 ∧ t.reg 0xF = 1#8) := by decide

theorem test_sub_flag_last_p4 : (run 0x8F05 (regs [(0xF, 5), (0, 10)])).reg 0xF = 0#8 := by decide

theorem test_shr_al16_al18_al22 :
    (let t := run 0x8216 (regs [(2, 0x05)]); t.reg 2 = 0x02#8 ∧ t.reg 0xF = 1#8) ∧
    (run 0x8F06 (regs [(0xF, 0x03)])).reg 0xF = 1#8 ∧
    (let t := run 0x8056 (regs [(0, 0x12), (5, 0xFF)]); t.reg 0 = 0x09#8 ∧ t.reg 0xF = 0#8) := by decide

theorem test_subn_al14_al15 :
    (let t := run 0x8017 (regs [(0, 5), (1, 10)]); t.reg 0 = 5#8 ∧ t.reg 0xF = 1#8) ∧
    (let t := run 0x8017 (regs [(0, 10), (1, 5)]); t.reg 0 = 251#8 ∧ t.reg 0xF = 0#8) := by decide

theorem test_shl_al20_al21 :
    (let t := run 0x810E (regs [(1, 0x81)]); t.reg 1 = 0x02#8 ∧ t.reg 0xF = 1#8) ∧
    (run 0x8F0E (regs [(0xF, 0x40)])).reg 0xF = 0#8 := by decide

theorem test_rnd_al24_al25 (s : State) :
    (nextOf s (exec (.rnd 0 0x00) s)).reg 0 = 0#8 ∧ (nextOf s (exec (.rnd 0 0xFF) s)).reg 0 = Config.rand8 s.draws := by
  simp only [exec, execRnd, nextOf, State.finish_reg, State.reg_setReg_same]
  exact ⟨BitVec.zero_and, BitVec.allOnes_and⟩

/-! Index and memory: vectors S6 and M1 to M15 -/

theorem test_ld_i_m1 : (run 0xA300 State.reset).i = 0x300#16 := by decide

theorem test_add_i_m3_m4 :
    (run 0xF01E { regs [(0, 1)] with i := 0x0FFF#16 }).i = 0x1000#16 ∧
    (let t := run 0xF01E { regs [(0, 2), (0xF, 9)] with i := 0xFFFF#16 }; t.i = 0x0001#16 ∧ t.reg 0xF = 9#8) := by decide

theorem test_ld_f_m5_m6 :
    (run 0xF029 (regs [(0, 0x0A)])).i = 0x0032#16 ∧ (run 0xF029 (regs [(0, 0x1A)])).i = 0x0082#16 := by decide

theorem test_ld_b_s6 :
    let t := run 0xF033 { regs [(0, 157)] with i := 0x300#16 }
    t.memRead 0x300 = 1#8 ∧ t.memRead 0x301 = 5#8 ∧ t.memRead 0x302 = 7#8 ∧ t.i = 0x300#16 := by decide

theorem test_ld_b_wraps_m9 :
    let t := run 0xF033 { regs [(0, 255)] with i := 0xFFE#16 }
    t.memRead 0xFFE = 2#8 ∧ t.memRead 0xFFF = 5#8 ∧ t.memRead 0x000 = 5#8 := by decide

theorem test_st_i_m10 :
    let t := run 0xF155 { regs [(0, 1), (1, 2), (2, 3)] with i := 0x300#16 }
    t.memRead 0x300 = 1#8 ∧ t.memRead 0x301 = 2#8 ∧ t.memRead 0x302 = 0#8 ∧ t.i = 0x300#16 := by decide

theorem test_st_i_over_next_word_m15 :
    (run 0xF155 { regs [(0, 0x12), (1, 0x00)] with i := 0x202#16 }).fetchWord = 0x1200#16 := by decide

theorem test_ld_vx_i_m12 :
    let t := run 0xF265 (cells [(0x300, 1), (0x301, 5), (0x302, 7), (0x303, 9)] { State.reset with i := 0x300#16 })
    t.reg 0 = 1#8 ∧ t.reg 1 = 5#8 ∧ t.reg 2 = 7#8 ∧ t.reg 3 = 0#8 ∧ t.i = 0x300#16 := by decide

theorem test_ld_vx_i_loads_vf_m14 :
    (run 0xFF65 (cells [(0x30F, 0xAB)] { State.reset with i := 0x300#16 })).reg 0xF = 0xAB#8 := by decide

/-! Display: vectors DP1 to DP11 -/

/-- The state before DP2. -/
def dp2 : State := cells [(0x20C, 0xC3)] { regs [(0, 62), (1, 1)] with i := 0x20C#16 }

theorem test_drw_wraps_columns_dp2 :
    let t := run 0xD011 dp2
    t.pix 62 1 = true ∧ t.pix 63 1 = true ∧ t.pix 4 1 = true ∧ t.pix 5 1 = true ∧ t.fb.count true = 4 ∧ t.reg 0xF = 0#8 ∧
      t.frameReady = 1 := by decide +kernel

theorem test_drw_collides_dp3 :
    let t := run 0xD011 { run 0xD011 dp2 with pc := 0x200#16 }
    t.fb.count true = 0 ∧ t.reg 0xF = 1#8 ∧ t.frameReady = 2 := by decide +kernel

/-- The state before DP5. -/
def dp5 : State := cells [(0x300, 0x80), (0x301, 0x80)] { regs [(0, 0), (1, 31)] with i := 0x300#16 }

theorem test_drw_wraps_rows_dp5 :
    let t := run 0xD012 dp5
    t.pix 0 31 = true ∧ t.pix 0 0 = true ∧ t.fb.count true = 2 ∧ t.reg 0xF = 0#8 := by decide +kernel

theorem test_drw_faults_dp6 :
    let t := run 0xD012 (lineage dp5)
    t.run = .halted .drawRowOutOfRange 0xD012#16 ∧ t.fb.count true = 0 ∧ t.pc = 0x200#16 ∧ t.frameReady = 0 := by decide +kernel

theorem test_drw_zero_row_does_not_fault_dp7 :
    let t := run 0xD012 (lineage (dp5.memWrite 0x301 0x00))
    t.pix 0 31 = true ∧ t.run = .run ∧ t.pc = 0x202#16 := by decide +kernel

theorem test_drw_reads_vf_first_dp10 :
    let t := run 0xDF11 (cells [(0x300, 0x80)] { regs [(0xF, 10), (1, 2)] with i := 0x300#16 })
    t.pix 10 2 = true ∧ t.reg 0xF = 0#8 := by decide

theorem test_cls_dp1 :
    let t := run 0x00E0 { run 0xD011 dp2 with pc := 0x200#16 }
    t.fb.count true = 0 ∧ t.frameReady = 2 ∧ t.v = dp2.v := by decide +kernel

/-! Keys and timers: vectors KT1 to KT18, S8 -/

theorem test_skp_kt1_kt2_kt4 :
    (run 0xE59E { regs [(5, 4)] with keys := keysDown [4] }).pc = 0x204#16 ∧ (run 0xE59E (regs [(5, 4)])).pc = 0x202#16 ∧
    (run 0xE59E { regs [(5, 0x14)] with keys := keysDown [4] }).pc = 0x204#16 := by decide

theorem test_sknp_kt3 :
    (run 0xE5A1 (regs [(5, 4)])).pc = 0x204#16 ∧ (run 0xE5A1 { regs [(5, 4)] with keys := keysDown [4] }).pc = 0x202#16 := by
  decide

theorem test_ld_vx_dt_kt5 : (run 0xF107 { State.reset with dt := 3#8 }).reg 1 = 3#8 := by decide

theorem test_ld_dt_kt6 : let t := run 0xF015 (regs [(0, 5)]); t.dt = 5#8 ∧ t.dtExpired = 0 := by decide

theorem test_ld_st_kt7_kt8 :
    (let t := run 0xF318 (regs [(3, 0x3C)]); t.st = 60#8 ∧ t.soundActive = true) ∧
    (let t := run 0xF018 { State.reset with st := 1#8 }; t.soundActive = false ∧ t.stExpired = 0) := by decide

/-- The state after KT11: waiting for a key into V3. -/
def kt11 : State := run 0xF30A { State.reset with pc := 0x300#16 }

theorem test_ld_vx_k_waits_kt11_kt12 :
    (kt11.run = .waitKey 3 (keysDown []) ∧ kt11.pc = 0x300#16 ∧ kt11.stepResult = some .waiting) ∧
    (let t := go { kt11 with keys := keysDown [7] }; pcAnd 3 t = (0x302, 7) ∧ t.run = .run ∧ t.stepResult = some .executed) := by
  decide

theorem test_ld_vx_k_edge_and_level_kt13_kt14 :
    (let held := { State.reset with keys := keysDown [3] }
     (run 0xF30A held).run = .waitKey 3 (keysDown [3]) ∧ (go (run 0xF30A held)).run = .waitKey 3 (keysDown [3]) ∧
     pcAnd 3 (run 0xF30A (levelKeys held)) = (0x202, 3)) ∧
    (go { kt11 with keys := keysDown [9, 2] }).reg 3 = 2#8 := by decide

/-- A tick of a state. -/
def tick (s : State) : State := go { s with schedule := [.tick] }

theorem test_tick_kt9_kt10_kt16 :
    (let t := tick { State.reset with dt := 1#8 }; t.dt = 0#8 ∧ t.dtExpired = 1 ∧ t.stExpired = 0) ∧
    tick State.reset = State.reset ∧ (tick (tick { kt11 with dt := 2#8 })).dt = 0#8 := by decide +kernel

/-! Faults, resume, reset and load: vectors X1 to X11 -/

/-- The state after X1. -/
def x1 : State := run 0xFFFF State.reset

/-- The code column of the table of 60_exceptions.md R211. -/
theorem test_fault_codes :
    Fault.code .unknownOpcode = 1 ∧ Fault.code .stackOverflow = 2 ∧ Fault.code .stackUnderflow = 3 ∧
    Fault.code .drawRowOutOfRange = 4 ∧ LoadResult.code .imageTooLarge = some 5 ∧ LoadResult.code .ok = none := by decide

theorem test_unknown_word_x1_x2 :
    x1.run = .halted .unknownOpcode 0xFFFF#16 ∧ x1.pc = 0x200#16 ∧ x1.stepResult = some (.fault .unknownOpcode) ∧ go x1 = x1 := by
  decide +kernel

theorem test_tick_while_halted_x3 : (tick { x1 with dt := 4#8 }).dt = 3#8 := by decide

theorem test_resume_retry_x4 : go (go { x1 with schedule := [.resume .retry] }) = x1 := by decide +kernel

theorem test_resume_skip_x5_x6_x7 :
    (let t := go { x1 with schedule := [.resume .skip] }; t.pc = 0x202#16 ∧ t.run = .run) ∧
    (go { x1 with pc := 0xFFE#16, schedule := [.resume .skip] }).pc = 0x000#16 ∧
    go { State.reset with schedule := [.resume .skip] } = State.reset := by decide +kernel

theorem test_load_s9_x10 :
    (let t := go { State.reset with schedule := [.load [0x62, 0x0A]] }
     t.loadResult = some .ok ∧ t.fetchWord = 0x620A#16 ∧ pcAnd 2 (go t) = (0x202, 10)) ∧
    (let t := go { State.reset with schedule := [.load []] }; t.loadResult = some .ok ∧ t.mem = State.reset.mem) := by decide

theorem test_load_too_large_x9 :
    let t := go { State.reset with schedule := [.load (List.replicate 3585 0x11)] }
    t.loadResult = some .imageTooLarge ∧ t.mem = State.reset.mem := by decide +kernel

theorem test_reset_x11 :
    go { x1 with keys := keysDown [5], dt := 9#8, schedule := [.reset] } = { State.reset with keys := keysDown [5] } := by decide +kernel

/-! Witnesses: for each obligation with hypotheses, a state and operands that meet all of them together, and for each
clause of one with several clauses, a value at the edge of its range. The name after witness_ is the obligation's. -/

theorem witness_DecodeOfEncodeIsTheInstruction :
    (Instr.sys 0x001#12).wf = true ∧ (Instr.sys 0x0ED#12).wf = true ∧ (Instr.sys 0xFFF#12).wf = true ∧
    (Instr.drw 0xF 0xF 0xF).wf = true := by decide

theorem witness_DecodedWordIsItsEncoding :
    decode 0x0001#16 = some (.sys 0x001) ∧ decode 0xFF65#16 = some (.ldVxI 0xF) := by decide

/-- A state whose next step fetches the word w. -/
def placed (w : Nat) : State := State.reset.withFetchWord 16 w

/-- The premises that every statement about a step of a running core has. -/
def running (s : State) : Prop := s.initialised = true ∧ s.nextOp = .step ∧ s.run = .run

theorem witness_StepRunsTheDecodedInstruction :
    (running (placed 0x620A) ∧
      decode (wordOfBytes ((placed 0x620A).memRead (placed 0x620A).pc.toNat)
        ((placed 0x620A).memRead ((placed 0x620A).pc.toNat + 1))) = some (.ldImm 0x2 0x0A)) ∧
    (let s := { State.reset with pc := 0xFFF#16 }.memWrite 0xFFF 0x60
     running s ∧ decode (wordOfBytes (s.memRead s.pc.toNat) (s.memRead (s.pc.toNat + 1))) = some (.ldImm 0x0 0xF0)) := by
  unfold running; decide

theorem witness_UnknownWordHaltsTheCore :
    running State.reset ∧
    0x0000#16 = wordOfBytes (State.reset.memRead State.reset.pc.toNat) (State.reset.memRead (State.reset.pc.toNat + 1)) ∧
    decode 0x0000#16 = none := by
  unfold running; decide

theorem witness_SysOnlyAdvancesPc :
    (0x001#12 ≠ 0x000#12 ∧ 0x001#12 ≠ 0x0E0#12 ∧ 0x001#12 ≠ 0x0EE#12) ∧
    (0x0EF#12 ≠ 0x000#12 ∧ 0x0EF#12 ≠ 0x0E0#12 ∧ 0x0EF#12 ≠ 0x0EE#12) := by decide

theorem witness_RetPopsThePc :
    { State.reset with stack := [0xFFF#12] }.stack = 0xFFF#12 :: [] ∧ State.reset.stack = [] := by decide

theorem witness_CallPushesTheReturnAddress :
    (State.reset.params.stackLimit ≠ some State.reset.stack.length) ∧
    ((limit 1 State.reset).params.stackLimit ≠ some (limit 1 State.reset).stack.length) ∧
    (let s := limit 1 { State.reset with stack := [0x202#12] }; s.params.stackLimit = some s.stack.length) := by decide

/-- Each of the four forms, both ways: equal and unequal operands, X = Y, and a non-zero trailing nibble. -/
theorem witness_SkipsCompareAndAdvance :
    (State.reset.reg 3 = 0x00#8) ∧ ¬(State.reset.reg 3 = 0xFF#8) ∧ (State.reset.reg 3 ≠ 0xFF#8) ∧
    ¬(State.reset.reg 3 ≠ 0x00#8) ∧ (State.reset.reg 0xF = State.reset.reg 0xF) ∧ ¬((regs [(1, 1)]).reg 1 = (regs [(1, 1)]).reg 2) ∧
    (0x1#4 : Nibble) ≠ 0x0#4 ∧ (0xF#4 : Nibble) ≠ 0x0#4 := by decide

/-- Sums at the ends of the range: 255 + 0, 255 + 255. -/
theorem witness_LoadsAndAddImmediateWriteOnlyVx :
    let s := regs [(0xF, 0xFF)]
    (0xFF = (0xFF#8).toNat) ∧ (255 = ((s.reg 0xF).toNat + (0x00#8).toNat) % 256) ∧
    (254 = ((s.reg 0xF).toNat + (0xFF#8).toNat) % 256) ∧ (255 = (s.reg 0xF).toNat) := by decide

theorem witness_LogicWritesOnlyVx :
    (Instr.orReg 0xF 0x0 = .orReg 0xF 0x0 ∧ or = or) ∧ (Instr.andReg 0x0 0x0 = .andReg 0x0 0x0 ∧ and = and) ∧
    (Instr.xorReg 0x0 0xF = .xorReg 0x0 0xF ∧ xor = xor) := ⟨⟨rfl, rfl⟩, ⟨rfl, rfl⟩, ⟨rfl, rfl⟩⟩

/-- 255 + 0 does not carry and 255 + 1 does; 5 - 10 borrows and 7 - 7 does not. -/
theorem witness_AddAndSubtractWriteVxThenVf :
    (let s := regs [(0, 255), (1, 0)]
     (255 : Int) = (s.reg 0).toNat + (s.reg 1).toNat ∧ ¬((s.reg 0).toNat + (s.reg 1).toNat > 255)) ∧
    (let s := regs [(0, 255), (1, 1)]
     (256 : Int) = (s.reg 0).toNat + (s.reg 1).toNat ∧ (s.reg 0).toNat + (s.reg 1).toNat > 255) ∧
    (let s := regs [(0, 5), (1, 10)]
     (-5 : Int) = ((s.reg 0).toNat : Int) - (s.reg 1).toNat ∧ ¬((s.reg 0).toNat ≥ (s.reg 1).toNat) ∧
       (5 : Int) = ((s.reg 1).toNat : Int) - (s.reg 0).toNat ∧ (s.reg 1).toNat ≥ (s.reg 0).toNat) ∧
    (let s := regs [(0, 7), (1, 7)]
     (0 : Int) = ((s.reg 0).toNat : Int) - (s.reg 1).toNat ∧ (s.reg 0).toNat ≥ (s.reg 1).toNat ∧
       (s.reg 1).toNat ≥ (s.reg 0).toNat) := by decide

theorem witness_ShiftsWriteVxThenVf :
    let s := regs [(0, 0x81)]
    (0x40 = (s.reg 0).toNat / 2 ∧ 1 = (s.reg 0).toNat % 2) ∧ (0x02 = (s.reg 0).toNat * 2 % 256 ∧ 1 = (s.reg 0).toNat / 128) := by
  decide

theorem witness_RndMasksOneFreeByte :
    (0#8 : Byte) = 0#8 ∧ (0x0F#8 : Byte).getLsbD 4 = false ∧ (0xE#4 : RegIdx) ≠ 0xF#4 := by decide

/-- LD.I at the ends of NNN; ADD.I past 0xFFF and past 0xFFFF; LD.F with V[X] = 255. -/
theorem witness_IndexInstructionsWriteOnlyI :
    (0 = (0x000#12 : Addr).toNat ∧ 4095 = (0xFFF#12 : Addr).toNat) ∧
    (let s := { regs [(0, 1)] with i := 0xFFFF#16 }; 0 = (s.i.toNat + (s.reg 0).toNat) % 65536) ∧
    (let s := { regs [(0, 1)] with i := 0x0FFF#16 }; 4096 = (s.i.toNat + (s.reg 0).toNat) % 65536) ∧
    1275 = ((regs [(0, 255)]).reg 0).toNat * 5 := by decide

/-- An address outside the three cells of I = 0xFFE, which wrap. -/
theorem witness_BcdWritesThreeDigits :
    ∀ k, k < 3 → cellOf 0x001 ≠ cellOf ({ State.reset with i := 0xFFE#16 }.i.toNat + k) := by decide

/-- X = 0 and X = 15: a register inside the block, and an address outside its cells. -/
theorem witness_StoreBlockWritesRegisters :
    (0#4 : RegIdx).toNat ≤ (0#4 : RegIdx).toNat ∧ (15#4 : RegIdx).toNat ≤ (15#4 : RegIdx).toNat ∧
    ∀ k, k ≤ (15#4 : RegIdx).toNat → cellOf 0x008 ≠ cellOf ({ State.reset with i := 0xFF8#16 }.i.toNat + k) := by decide

theorem witness_LoadBlockReadsRegisters :
    (0#4 : RegIdx).toNat ≤ (0#4 : RegIdx).toNat ∧ (0#4 : RegIdx).toNat < (1#4 : RegIdx).toNat ∧
    (15#4 : RegIdx).toNat ≤ (15#4 : RegIdx).toNat := by decide

/-- Vector M15, and a store through the end of memory. -/
theorem witness_StoredWordIsFetchedNext :
    (let s := { State.reset with i := 0x202#16 }
     0 + 1 ≤ (1#4 : RegIdx).toNat ∧ cellOf (s.pc.toNat + 2) = cellOf (s.i.toNat + 0)) ∧
    (let s := { State.reset with pc := 0xFFE#16, i := 0xFFF#16 }
     1 + 1 ≤ (2#4 : RegIdx).toNat ∧ cellOf (s.pc.toNat + 2) = cellOf (s.i.toNat + 1)) := by decide

theorem witness_HighBitsOfIChangeNoEffect :
    State.reset.initialised = true ∧
    { State.reset with i := 0x0300#16 }.sameButHighI { State.reset with i := 0xF300#16 } := ⟨rfl, rfl, rfl⟩

theorem default_rate_positive (r : ℝ) (h : TimerRate.isHz (.hz 60) r) : 0 < r := by
  rw [show r = ((60 : Rat) : ℝ) from h]; norm_num

theorem reset_params_wf : State.reset.params.wf := ⟨trivial, by decide, by decide, default_rate_positive⟩

theorem dp2_coherent : dp2.coherent := ⟨by decide, by decide, List.length_replicate, trivial⟩

theorem dp5_coherent : dp5.coherent := ⟨by decide, by decide, List.length_replicate, trivial⟩

/-- Vector DP2 finds no set pixel and DP3 does; with N = 0 nothing is drawn; DP7 draws on the last row with lineage. -/
theorem witness_DrwTogglesTheSprite :
    (dp2.params.wf ∧ dp2.coherent ∧ ¬dp2.drawsPastLastRow (dp2.reg 1).toNat 1 ∧ ¬dp2.someTurnedOff (dp2.spriteCells 62 1 1)) ∧
    (let s := { dp2 with fb := dp2.fb.set (1 * 64 + 5) true }
     s.params.wf ∧ s.coherent ∧ ¬s.drawsPastLastRow (s.reg 1).toNat 1 ∧ s.someTurnedOff (s.spriteCells 62 1 1)) ∧
    ¬dp2.someTurnedOff (dp2.spriteCells 62 1 0) ∧
    (let s := lineage (dp5.memWrite 0x301 0x00)
     s.params.wf ∧ s.coherent ∧ ¬s.drawsPastLastRow (s.reg 1).toNat 2) := by
  refine ⟨⟨reset_params_wf, dp2_coherent, ?_, ?_⟩, ⟨reset_params_wf, ⟨by decide, by decide, ?_, trivial⟩, ?_, ?_⟩, ?_,
    ⟨reset_params_wf, ⟨by decide, by decide, List.length_replicate, trivial⟩, ?_⟩⟩
  · rw [← State.rowOutOfRange_iff]; decide
  · rintro ⟨k, hk, h⟩
    have hk : k < 4 := hk
    revert h
    interval_cases k <;> decide +kernel +revert
  · rw [List.length_set]; exact List.length_replicate
  · rw [← State.rowOutOfRange_iff]; decide
  · exact ⟨3, by decide, by decide +kernel⟩
  · rintro ⟨k, hk, _⟩
    exact Nat.not_lt_zero k hk
  · rw [← State.rowOutOfRange_iff]; decide

/-- Vector DP6 draws past the last row, and DP7 does not. -/
theorem witness_DrwFaultsPastTheLastRow :
    (let s := lineage dp5
     exec (.drw 0 1 2) s = .next (nextOf s (exec (.drw 0 1 2) s)) ∧ s.drawsPastLastRow (s.reg 1).toNat (2#4 : Nibble).toNat) ∧
    (let s := lineage (dp5.memWrite 0x301 0x00)
     exec (.drw 0 1 2) s = .next (nextOf s (exec (.drw 0 1 2) s)) ∧ ¬s.drawsPastLastRow (s.reg 1).toNat (2#4 : Nibble).toNat) := by
  refine ⟨⟨eq_next _ (by decide), ?_⟩, ⟨eq_next _ (by decide), ?_⟩⟩
  · rw [← State.rowOutOfRange_iff]; decide
  · rw [← State.rowOutOfRange_iff]; decide

theorem witness_SecondDrawRestoresThePixels :
    (0#4 : RegIdx) ≠ 0xF#4 ∧ (1#4 : RegIdx) ≠ 0xF#4 ∧ dp2.params.wf ∧ dp2.coherent ∧
    ¬dp2.drawsPastLastRow (dp2.reg 1).toNat (1#4 : Nibble).toNat ∧
    exec (.drw 0 1 1) dp2 = .next (nextOf dp2 (exec (.drw 0 1 1) dp2)) ∧
    (dp2.spriteCells (dp2.reg 0).toNat (dp2.reg 1).toNat (1#4 : Nibble).toNat).Nodup := by
  refine ⟨by decide, by decide, reset_params_wf, dp2_coherent, ?_, eq_next _ (by decide), by decide⟩
  rw [← State.rowOutOfRange_iff]; decide

/-- V[X] = 0x00, 0x0F, 0x10 and 0xFF: the keys 0, F, 0 and F. -/
theorem witness_KeySkipsTestTheKey :
    ([(0x00, 0x0), (0x0F, 0xF), (0x10, 0x0), (0xFF, 0xF)] : List (Byte × KeyIdx)).all
      (fun p => decide (p.2.toNat = ((regs [(5, p.1)]).reg 5).toNat % 16)) = true := by decide

/-- edge with a key held, level with none, level with key 0 and with key F. -/
theorem witness_WaitForKeyFirstStep :
    (State.reset.params.fx0aTrigger = .edge) ∧ (∀ k, (levelKeys State.reset).keys.down k = false) ∧
    (let s := levelKeys { State.reset with keys := keysDown [0] }
     s.params.fx0aTrigger = .level ∧ s.keys.down 0 = true ∧ s.params.fx0aKeyChoice = .lowest) ∧
    (let s := levelKeys { State.reset with keys := keysDown [15] }; s.params.fx0aTrigger = .level ∧ s.keys.down 15 = true) := by
  decide

/-- A wait in which key 3 was held: with edge it does not qualify, with level it does; a new key F qualifies. -/
theorem witness_WaitForKeyPoll :
    (let s := { State.reset with run := .waitKey 3 (keysDown [3]), keys := keysDown [3] }
     s.initialised = true ∧ s.nextOp = .step ∧ s.run = .waitKey 3 (keysDown [3]) ∧
     ∀ k, ¬(s.keys.down k = true ∧ (s.params.fx0aTrigger = .edge → (keysDown [3]).down k = false))) ∧
    (let s := levelKeys { State.reset with run := .waitKey 3 (keysDown [3]), keys := keysDown [3] }
     s.run = .waitKey 3 (keysDown [3]) ∧
     s.keys.down 3 = true ∧ (s.params.fx0aTrigger = .edge → (keysDown [3]).down 3 = false)) ∧
    (let s := { State.reset with run := .waitKey 3 (keysDown [3]), keys := keysDown [3, 15] }
     s.keys.down 15 = true ∧ (s.params.fx0aTrigger = .edge → (keysDown [3]).down 15 = false)) := by decide

/-- Timers at 0, 1 and 255. -/
theorem witness_TickDecrementsTheTimers :
    ([(0, 1), (1, 0), (255, 255)] : List (Byte × Byte)).all (fun p =>
      let s := { State.reset with dt := p.1, st := p.2, schedule := [.tick] }
      s.initialised && s.nextOp == .tick) = true := by decide

/-- One tick short of 0, just to 0, and past it. -/
theorem witness_TicksSaturateAtZero :
    let s := { State.reset with dt := 5#8 }
    (State.tickTimers^[4] s).dt = 1#8 ∧ (0 < s.dt.toNat ∧ s.dt.toNat ≤ 5) ∧ (0 < s.dt.toNat ∧ s.dt.toNat ≤ 6) ∧
    ¬(0 < s.dt.toNat ∧ s.dt.toNat ≤ 4) ∧ ¬(0 < s.st.toNat ∧ s.st.toNat ≤ 6) := by decide

/-- One state for each core fault: a running core whose next step faults so. -/
theorem witness_FaultsArePrecise :
    ([(placed 0x512F, .unknownOpcode), (limit 0 (placed 0x2300), .stackOverflow), (placed 0x00EE, .stackUnderflow),
      (lineage (dp5.withFetchWord 16 0xD012), .drawRowOutOfRange)] : List (State × Fault)).all (fun p =>
        p.1.initialised && p.1.nextOp == .step && p.1.run == .run && isNext (step p.1) &&
          (nextOf p.1 (step p.1)).stepResult == some (.fault p.2)) = true := by decide

/-- For each core fault a state that has its cause, and one beside it that has not. -/
theorem witness_FaultsHaveTheirCauses :
    (running (placed 0x512F) ∧ isNext (step (placed 0x512F)) = true ∧ decode (placed 0x512F).fetchWord = none) ∧
    (running (placed 0x5120) ∧ isNext (step (placed 0x5120)) = true ∧ decode (placed 0x5120).fetchWord ≠ none) ∧
    (let s := limit 0 (placed 0x2300); running s ∧ isNext (step s) = true ∧ decode s.fetchWord = some (.call 0x300) ∧
      s.params.stackLimit = some s.stack.length) ∧
    (let s := limit 1 (placed 0x2300); running s ∧ isNext (step s) = true ∧ s.params.stackLimit ≠ some s.stack.length) ∧
    (running (placed 0x00EE) ∧ isNext (step (placed 0x00EE)) = true ∧ (placed 0x00EE).stack = []) ∧
    (let s := lineage (dp5.withFetchWord 16 0xD012); running s ∧ isNext (step s) = true ∧
      decode s.fetchWord = some (.drw 0 1 2) ∧ s.rowOutOfRange (s.reg 1).toNat (2#4 : Nibble).toNat = true) := by
  unfold running; decide

theorem witness_HaltedCoreStaysAsItIs :
    x1.initialised = true ∧ x1.nextOp = .step ∧ x1.run = .halted .unknownOpcode 0xFFFF#16 := by decide

/-- retry and skip of a halted core, skip of a running one and of a waiting one. -/
theorem witness_ResumeLeavesHalted :
    (let s := { x1 with schedule := [.resume .retry] }
     s.initialised = true ∧ s.nextOp = .resume .retry ∧ s.run = .halted .unknownOpcode 0xFFFF#16) ∧
    (let s := { x1 with pc := 0xFFE#16, schedule := [.resume .skip] }
     s.initialised = true ∧ s.nextOp = .resume .skip ∧ s.run = .halted .unknownOpcode 0xFFFF#16) ∧
    (let s := { State.reset with schedule := [.resume .skip] }
     s.initialised = true ∧ s.nextOp = .resume .skip ∧ ¬∃ c w, s.run = .halted c w) ∧
    (let s := { kt11 with schedule := [.resume .skip] }
     s.initialised = true ∧ s.nextOp = .resume .skip ∧ ¬∃ c w, s.run = .halted c w) := by
  refine ⟨by decide, by decide, ⟨by decide, by decide, ?_⟩, ⟨by decide, by decide, ?_⟩⟩
  · rintro ⟨c, w, h⟩; cases h
  · rintro ⟨c, w, h⟩; cases h

/-- A reset of a halted machine, and of one never reset; the first and last cell of each of R250's two ranges. -/
theorem witness_ResetGivesTheResetValues :
    { x1 with schedule := [.reset] }.nextOp = .reset ∧
    { State.reset with initialised := false, schedule := [.reset] }.nextOp = .reset ∧
    (0 < 80 ∧ 79 < 80) ∧ (80 ≤ 80 ∧ 80 < 4096) ∧ (80 ≤ 4095 ∧ 4095 < 4096) := by decide

/-- Images of no byte, of the longest length, and of one byte more. -/
theorem witness_LoadIsAllOrNothing :
    (let s := { State.reset with schedule := [.load []] }
     s.initialised = true ∧ s.nextOp = .load [] ∧ 0x200 + ([] : List Byte).length ≤ 0x1000) ∧
    (let image : List Byte := List.replicate 3584 0x11
     let s := { State.reset with schedule := [.load image] }
     s.initialised = true ∧ s.nextOp = .load image ∧ 0x200 + image.length ≤ 0x1000) ∧
    (let image : List Byte := List.replicate 3585 0x11
     let s := { State.reset with schedule := [.load image] }
     s.initialised = true ∧ s.nextOp = .load image ∧ 0x200 + image.length > 0x1000) := by
  refine ⟨by decide, ⟨rfl, rfl, ?_⟩, ⟨rfl, rfl, ?_⟩⟩
  · rw [List.length_replicate]
  · rw [List.length_replicate]; decide

theorem witness_NothingRunsBeforeTheFirstReset :
    ([.step, .tick, .load [], .resume .retry] : List PortOp).all (fun op =>
      let s := { State.reset with initialised := false, schedule := [op] }
      !s.initialised && s.nextOp == op) = true := by decide

theorem witness_SetKeysChangesTheKeysOnly :
    { State.reset with schedule := [.setKeys (keysDown [0, 15])] }.nextOp = .setKeys (keysDown [0, 15]) := by decide

/-- Next states that ended, waited and faulted, of instructions of several classes. -/
theorem witness_PcFollowsTheInstructionClass :
    ([(.jpV0 0xFFF, .executed), (.call 0x300, .executed), (.seImm 0 0, .executed), (.ldVxK 3, .waiting),
      (.ret, .fault .stackUnderflow)] : List (Instr × StepResult)).all (fun p =>
        isNext (exec p.1 State.reset) && (nextOf State.reset (exec p.1 State.reset)).stepResult == some p.2) = true ∧
    (State.reset.pollKeys 3 (keysDown [])).stepResult = some .waiting ∧
    ({ State.reset with keys := keysDown [7] }.pollKeys 3 (keysDown [])).stepResult = some .executed := by decide

/-- An instruction that writes the flag, one that writes V[X] only, and registers each of them leaves. -/
theorem witness_RegistersAreWrittenByTheTable :
    isNext (exec (.addReg 0 1) State.reset) = true ∧ writesReg (.addReg 0 1) 1 = false ∧ setsFlag (.addReg 0 1) = true ∧
    (1#4 : RegIdx) ≠ 0xF#4 ∧ (nextOf State.reset (exec (.addReg 0 1) State.reset)).stepResult = some .executed ∧
    writesReg (.ldVxI 0xE) 0xF = false ∧ setsFlag (.ldVxI 0xE) = false := by decide

theorem witness_OnlyCallPushesAndOnlyRetPops :
    exec (.call 0x300) State.reset = .next (nextOf State.reset (exec (.call 0x300) State.reset)) := eq_next _ (by decide)

theorem witness_MemoryDisplayIndexAndTimersHaveTheirWriters :
    isNext (exec (.ldVxI 0xF) State.reset) = true ∧ storesMemory (.ldVxI 0xF) = false ∧
    writesFramebuffer (.ldVxI 0xF) = false ∧ writesIndex (.ldVxI 0xF) = false ∧ (∀ x, Instr.ldVxI 0xF ≠ .ldDt x) ∧
    (∀ x, Instr.ldVxI 0xF ≠ .ldSt x) := ⟨by decide, rfl, rfl, rfl, fun _ h => (by cases h), fun _ h => (by cases h)⟩

theorem witness_NoInstructionWritesInputsOrParameters :
    isNext (exec (.skp 0) State.reset) = true ∧ (∀ x nn, Instr.skp 0 ≠ .rnd x nn) ∧ (∀ x, Instr.skp 0 ≠ .ldVxK x) :=
  ⟨by decide, fun _ _ h => (by cases h), fun _ h => (by cases h)⟩

theorem witness_ResetMachineNeverStops : State.reset.initialised = true := rfl

theorem reset_inv : State.reset.Inv :=
  ⟨reset_params_wf, fun _ => ⟨by decide, rfl, List.length_replicate, trivial⟩⟩

/-- A state with each clause of the invariant at its edge: a full stack, a cell listed at each end of memory, and PC at
its last value. -/
theorem witness_StepKeepsTheInvariant :
    let s := limit 1 (cells [(0xFFF, 0x60), (0x000, 0x11)] { State.reset with pc := 0xFFF#16, stack := [0xFFF#12] })
    s.Inv ∧ step s = .next (nextOf s (step s)) :=
  ⟨⟨⟨Nat.le_refl 1, by decide, by decide, default_rate_positive⟩,
    fun _ => ⟨by decide, by decide, List.length_replicate, Nat.le_refl 1⟩⟩, eq_next _ (by decide)⟩

theorem witness_PlacedWordIsRun : decode 0x0001#16 = some (.sys 0x001) ∧ decode 0xFF65#16 = some (.ldVxI 0xF) := by decide

/-! Unending runs: step() and a tick in turn, for ever -/

/-- The interleaving step(), tick, step(), tick, and so on. -/
def turns (k : Nat) : PortOp := if k % 2 = 0 then .step else .tick

/-- A core in the self-loop of vector CF5, its step_result already Executed. -/
def looping : State := run 0x1200 State.reset

/-- A core that waits for a key with FX0A_TRIGGER = level and key 3 down, a self-loop at the word after FX0A. -/
def waiting : State :=
  let s := (run 0xF30A (levelKeys State.reset)).memWrites 0x202 [0x12, 0x02]
  { s with keys := keysDown [3] }

/-- That core after its wait. -/
def woken : State := go waiting

/-- The states of the run in which the waiting core goes through turns. -/
def wokenAfter (k : Nat) : State := if k = 0 then waiting else woken

theorem next_eq {r : Result} {t : State} (h : isNext r = true) (e : nextOf t r = t) : r = .next t := by
  rw [eq_next t h, e]

theorem turns_cases (k : Nat) : turns k = .step ∨ turns k = .tick := by
  unfold turns; split <;> simp

theorem looping_run : isRun turns (fun _ => looping) := by
  intro k
  show step (looping.offered (turns k)) = .next looping
  rcases turns_cases k with h | h <;> rw [h] <;> exact next_eq (by decide +kernel) (by decide +kernel)

theorem woken_run : isRun turns wokenAfter := by
  intro k
  cases k with
  | zero => exact eq_next waiting (by decide +kernel)
  | succ k =>
    show step (woken.offered (turns (k + 1))) = .next woken
    rcases turns_cases (k + 1) with h | h <;> rw [h] <;> exact next_eq (by decide +kernel) (by decide +kernel)

theorem turns_tick : ticksKeepOccurring turns := fun n => ⟨2 * n + 1, by omega, by simp [turns, Nat.add_mod]⟩

theorem turns_step (states : Nat → State) : stepsKeepOccurring turns states :=
  fun n => ⟨2 * n, by omega, .inl (by simp [turns])⟩

theorem witness_EveryInterleavingIsARun : State.reset.initialised = true := rfl

/-- The states of the run of ticks alone from DT = 255. -/
def ticked (k : Nat) : State := State.tickTimers^[k] { State.reset with dt := 255#8 }

theorem ticked_run : isRun (fun _ => .tick) ticked := by
  intro k
  have h : (ticked k).initialised = true ∧ (ticked k).schedule = [] := by
    unfold ticked
    induction k with
    | zero => exact ⟨rfl, rfl⟩
    | succ k ih => rw [Function.iterate_succ_apply']; exact ih
  have e : ticked (k + 1) = (ticked k).tickTimers := Function.iterate_succ_apply' _ _ _
  rw [step_offered, e, ← h.2]
  exact afterReset_of_initialised h.1 _

/-- A fair run in which neither timer instruction is executed, and the run of ticks alone. -/
theorem witness_TimersExpireIfTicksKeepOccurring :
    isFairRun turns (fun _ => looping) ∧ isRun (fun _ => .tick) ticked ∧ ticksKeepOccurring (fun _ => .tick) :=
  ⟨⟨looping_run, turns_tick, turns_step _⟩, ticked_run, fun n => ⟨n, Nat.le_refl n, rfl⟩⟩

theorem witness_KeyWaitEndsIfStepsKeepOccurring :
    isRun turns wokenAfter ∧ stepsKeepOccurring turns wokenAfter ∧ (wokenAfter 0).run = .waitKey 3 (keysDown []) ∧
    (wokenAfter 0).params.fx0aTrigger = .level ∧ ∀ m, 0 ≤ m → ∃ k, (wokenAfter m).keys.down k = true := by
  refine ⟨woken_run, turns_step _, by decide, by decide, fun m _ => ⟨3, ?_⟩⟩
  unfold wokenAfter; split <;> decide +kernel

end Sys2Proof.Tests
end

section
/-! The frames of the operations that a transaction is made of, what one transaction does to the timers and to a waiting
core, and the three statements about unending runs (00_scope.md R12, R14). -/

namespace Sys2Proof.Machine

/-! Frames of shared operations -/

/-- Taking a key touches the register file, PC, step_result and the count of draws only (44_keys_timers.md R196). -/
theorem State.takeKey_frame (s : State) (x : RegIdx) (k : KeyIdx) (rest : List KeyIdx) :
    s.takeKey x k rest =
      { s with v := (s.takeKey x k rest).v, pc := (s.takeKey x k rest).pc,
               stepResult := (s.takeKey x k rest).stepResult, draws := (s.takeKey x k rest).draws } := by
  obtain ⟨j, _, _, e⟩ := s.takeKey_spec x k rest
  rw [e]
  rfl

/-- A poll touches the register file, PC, the run state, step_result and the count of draws only (44_keys_timers.md R195). -/
theorem State.pollKeys_frame (s : State) (x : RegIdx) (prev : Keys) :
    s.pollKeys x prev =
      { s with v := (s.pollKeys x prev).v, pc := (s.pollKeys x prev).pc, run := (s.pollKeys x prev).run,
               stepResult := (s.pollKeys x prev).stepResult, draws := (s.pollKeys x prev).draws } := by
  unfold State.pollKeys
  split
  · rfl
  · rw [State.takeKey_frame]

/-- Loading a block touches the register file only (42_index_memory.md R155). -/
theorem State.loadBlock_frame (s : State) (x : RegIdx) : s.loadBlock x = { s with v := (s.loadBlock x).v } :=
  State.loads_frame s (blockIndices x)

/-- A load touches memory and its own result only (70_reset_and_hazards.md R253). -/
theorem State.hostLoad_frame (s : State) (bytes : List Byte) :
    s.hostLoad bytes = { s with mem := (s.hostLoad bytes).mem, loadResult := (s.hostLoad bytes).loadResult } := by
  unfold State.hostLoad
  split
  · rfl
  · rw [State.memWrites_frame]

/-- A resume touches PC and the run state only (60_exceptions.md R216). -/
theorem State.resume_frame (s : State) (mode : ResumeMode) :
    s.resume mode = { s with pc := (s.resume mode).pc, run := (s.resume mode).run } := by
  unfold State.resume
  split
  · cases mode <;> rfl
  · rfl
  · rfl

/-- A resume leaves a waiting core alone (60_exceptions.md R216). -/
theorem State.resume_of_waitKey {s : State} {x : RegIdx} {prev : Keys} (h : s.run = .waitKey x prev) (mode : ResumeMode) :
    s.resume mode = s := by
  unfold State.resume
  split
  · next e => cases h.symm.trans e
  · rfl
  · rfl

/-- A poll that finds a qualifying key ends the wait (44_keys_timers.md R195). -/
theorem State.pollKeys_run_of_qualifying {s : State} {prev : Keys} {k : KeyIdx}
    (h : k ∈ Keys.qualifying s.params.fx0aTrigger prev s.keys) (x : RegIdx) : (s.pollKeys x prev).run = .run := by
  unfold State.pollKeys
  split
  · next e => rw [e] at h; cases h
  · rfl

/-! Every transaction after the first reset has a next state -/

/-- A guarded transaction has a next state only after the first reset (70_reset_and_hazards.md R252). -/
theorem afterReset_eq_next_iff {s t : State} {r : Result} :
    afterReset s r = .next t ↔ s.initialised = true ∧ r = .next t := by
  unfold afterReset
  split <;> simp_all

/-- Every instruction has a next state: no access faults (20_memory.md R51), and a core fault is a next state
(60_exceptions.md R212). -/
theorem exec_total (i : Instr) (s : State) : ∃ t, exec i s = .next t := by
  cases i
  case ret => rw [exec, execRet]; split <;> exact ⟨_, rfl⟩
  case call nnn => rw [exec, execCall]; split <;> exact ⟨_, rfl⟩
  case drw x y n => rw [exec, execDrw]; split <;> exact ⟨_, rfl⟩
  case ldVxK x => rw [exec, execLdVxK]; split <;> exact ⟨_, rfl⟩
  all_goals exact ⟨_, rfl⟩

/-- No instruction undoes the first reset. -/
theorem exec_initialised {i : Instr} {s t : State} (h : exec i s = .next t) : t.initialised = s.initialised := by
  obtain ⟨c, rfl⟩ | ⟨x, -, rfl⟩ | ⟨u, a, rfl, hu⟩ := exec_kinds i s t h
  · rfl
  · rfl
  · rw [State.finishAt_initialised, hu]

/-- step() has a next state in every run state, and it does not undo the first reset. -/
theorem instructionStep_total (s : State) : ∃ t, instructionStep s = .next t ∧ t.initialised = s.initialised := by
  unfold instructionStep
  split
  · unfold fetchExecute
    split
    · exact ⟨_, rfl, rfl⟩
    · next k _ =>
      obtain ⟨t, ht⟩ := exec_total k s
      exact ⟨t, ht, exec_initialised ht⟩
  · next x prev _ => exact ⟨_, rfl, by rw [State.pollKeys_frame]⟩
  · exact ⟨s, rfl, rfl⟩

/-- After the first reset every transaction has a next state, initialised again. -/
theorem portStep_total (op : PortOp) {s : State} (h : s.initialised = true) :
    ∃ t, portStep op s = .next t ∧ t.initialised = true := by
  cases op <;> simp only [portStep, afterReset_of_initialised h]
  case step =>
    obtain ⟨t, ht, hi⟩ := instructionStep_total s
    exact ⟨t, ht, hi.trans h⟩
  case tick => exact ⟨_, rfl, h⟩
  case reset => exact ⟨_, rfl, rfl⟩
  case load bytes => exact ⟨_, rfl, by rw [State.hostLoad_frame]; exact h⟩
  case resume mode => exact ⟨_, rfl, by rw [State.resume_frame]; exact h⟩
  case setKeys keys => exact ⟨_, rfl, h⟩

/-! What a transaction does to the timers -/

/-- Step() on this state executes i (40_control_flow.md R100). -/
def State.fetches (s : State) (i : Instr) : Prop := s.run = .run ∧ decode s.fetchWord = some i

/-- A timer after a transaction that executes no instruction writing it: a tick counts it down, a reset clears it
(60_exceptions.md R222; 70_reset_and_hazards.md R250). -/
def PortOp.onTimer (op : PortOp) (b : Byte) : Byte :=
  match op with
  | .tick => tickDown b
  | .reset => 0#8
  | _ => b

theorem PortOp.onTimer_le (op : PortOp) (b : Byte) : (op.onTimer b).toNat ≤ b.toNat := by
  cases op
  case tick => exact (tickDown_toNat b).trans_le (Nat.sub_le _ _)
  case reset => exact Nat.zero_le _
  all_goals exact Nat.le_refl _

theorem PortOp.onTimer_tick_lt {b : Byte} (h : b ≠ 0#8) : (PortOp.tick.onTimer b).toNat < b.toNat := by
  have hb : b.toNat ≠ 0 := fun e => h (BitVec.eq_of_toNat_eq e)
  show (tickDown b).toNat < b.toNat
  rw [tickDown_toNat]
  omega

/-- FX15 alone writes DT and FX18 alone ST (44_keys_timers.md R197, R198). -/
theorem exec_timers {i : Instr} {s t : State} (h : exec i s = .next t) :
    (t.dt = s.dt ∨ ∃ x, i = .ldDt x) ∧ (t.st = s.st ∨ ∃ x, i = .ldSt x) := by
  cases i
  case ldDt x => cases h; exact ⟨.inr ⟨x, rfl⟩, .inl rfl⟩
  case ldSt x => cases h; exact ⟨.inl rfl, .inr ⟨x, rfl⟩⟩
  case ret => rw [exec, execRet] at h; split at h <;> cases h <;> exact ⟨.inl rfl, .inl rfl⟩
  case call nnn => rw [exec, execCall] at h; split at h <;> cases h <;> exact ⟨.inl rfl, .inl rfl⟩
  case drw x y n => rw [exec, execDrw] at h; split at h <;> cases h <;> exact ⟨.inl rfl, .inl rfl⟩
  case ldVxK x =>
    rw [exec, execLdVxK] at h
    split at h <;> cases h
    · exact ⟨.inl rfl, .inl rfl⟩
    · rw [State.takeKey_frame]; exact ⟨.inl rfl, .inl rfl⟩
  case ldB x => cases h; rw [State.memWrites_frame]; exact ⟨.inl rfl, .inl rfl⟩
  case stI x => cases h; rw [State.memWrites_frame]; exact ⟨.inl rfl, .inl rfl⟩
  case ldVxI x => cases h; rw [State.loadBlock_frame]; exact ⟨.inl rfl, .inl rfl⟩
  all_goals (cases h; exact ⟨.inl rfl, .inl rfl⟩)

theorem instructionStep_timers {s t : State} (h : instructionStep s = .next t) :
    (t.dt = s.dt ∨ ∃ x, s.fetches (.ldDt x)) ∧ (t.st = s.st ∨ ∃ x, s.fetches (.ldSt x)) := by
  unfold instructionStep at h
  split at h
  · next hrun =>
    unfold fetchExecute at h
    split at h
    · cases h; exact ⟨.inl rfl, .inl rfl⟩
    · next k hk =>
      obtain ⟨hdt, hst⟩ := exec_timers h
      exact ⟨hdt.imp_right fun ⟨x, hx⟩ => ⟨x, hrun, hx ▸ hk⟩, hst.imp_right fun ⟨x, hx⟩ => ⟨x, hrun, hx ▸ hk⟩⟩
  · cases h; rw [State.pollKeys_frame]; exact ⟨.inl rfl, .inl rfl⟩
  · cases h; exact ⟨.inl rfl, .inl rfl⟩

theorem portStep_timers {op : PortOp} {s t : State} (h : portStep op s = .next t) :
    (t.dt = op.onTimer s.dt ∨ op = .step ∧ ∃ x, s.fetches (.ldDt x)) ∧
    (t.st = op.onTimer s.st ∨ op = .step ∧ ∃ x, s.fetches (.ldSt x)) := by
  cases op <;> simp only [portStep, afterReset_eq_next_iff] at h
  case step =>
    obtain ⟨hdt, hst⟩ := instructionStep_timers h.2
    exact ⟨hdt.imp_right fun hx => ⟨rfl, hx⟩, hst.imp_right fun hx => ⟨rfl, hx⟩⟩
  case tick => cases h.2; exact ⟨.inl rfl, .inl rfl⟩
  case reset => cases h; exact ⟨.inl rfl, .inl rfl⟩
  case load bytes => cases h.2; rw [State.hostLoad_frame]; exact ⟨.inl rfl, .inl rfl⟩
  case resume mode => cases h.2; rw [State.resume_frame]; exact ⟨.inl rfl, .inl rfl⟩
  case setKeys keys => cases h; exact ⟨.inl rfl, .inl rfl⟩

/-! What a transaction does to a waiting core -/

/-- While a key is down, a core that waits with FX0A_TRIGGER = level comes to RUN at its next step, and until then only
a reset can end the wait (44_keys_timers.md R195). -/
theorem portStep_of_level_wait {op : PortOp} {s t : State} {x : RegIdx} {prev : Keys} (h : portStep op s = .next t)
    (hrun : s.run = .waitKey x prev) (hlevel : s.params.fx0aTrigger = .level) (hkey : ∃ k, s.keys.down k = true) :
    t.run = .run ∨ op ≠ .step ∧ t.run = .waitKey x prev ∧ t.params.fx0aTrigger = .level := by
  cases op <;> simp only [portStep, afterReset_eq_next_iff] at h
  case step =>
    obtain ⟨k, hk⟩ := hkey
    have hq : k ∈ Keys.qualifying s.params.fx0aTrigger prev s.keys :=
      (mem_qualifying _ _ _ _).2 ⟨hk, by simp [hlevel]⟩
    simp only [instructionStep, hrun] at h
    cases h.2
    exact .inl (State.pollKeys_run_of_qualifying hq x)
  case tick => cases h.2; exact .inr ⟨nofun, hrun, hlevel⟩
  case reset => cases h; exact .inl rfl
  case load bytes => cases h.2; rw [State.hostLoad_frame]; exact .inr ⟨nofun, hrun, hlevel⟩
  case resume mode => cases h.2; rw [State.resume_of_waitKey hrun]; exact .inr ⟨nofun, hrun, hlevel⟩
  case setKeys keys => cases h; exact .inr ⟨nofun, hrun, hlevel⟩

/-! Unending runs -/

/-- Step k of a run performs transaction k. -/
theorem isRun.portStep_eq {ops : Nat → PortOp} {states : Nat → State} (h : isRun ops states) (k : Nat) :
    portStep (ops k) { states k with schedule := [] } = .next (states (k + 1)) :=
  (step_offered (states k) (ops k)).symm.trans (h k)

/-- The states reached from s under the interleaving ops; a transaction that is refused leaves the state. -/
def statesFrom (s : State) (ops : Nat → PortOp) : Nat → State
  | 0 => s
  | k + 1 =>
    match step ((statesFrom s ops k).offered (ops k)) with
    | .next t => t
    | .fault _ => statesFrom s ops k
    | .refused _ => statesFrom s ops k

theorem statesFrom_succ {s : State} {ops : Nat → PortOp} {k : Nat} (h : (statesFrom s ops k).initialised = true) :
    step ((statesFrom s ops k).offered (ops k)) = .next (statesFrom s ops (k + 1)) ∧
      (statesFrom s ops (k + 1)).initialised = true := by
  obtain ⟨t, ht, hi⟩ := portStep_total (ops k) (s := { statesFrom s ops k with schedule := [] }) h
  rw [← step_offered] at ht
  have hsucc : statesFrom s ops (k + 1) = t := by rw [statesFrom, ht]
  rw [hsucc]
  exact ⟨ht, hi⟩

theorem statesFrom_initialised {s : State} (ops : Nat → PortOp) (h : s.initialised = true) (k : Nat) :
    (statesFrom s ops k).initialised = true := by
  induction k with
  | zero => exact h
  | succ k ih => exact (statesFrom_succ ih).2

/-- A sequence of numbers that never rises from n on does not fall again and again. -/
theorem not_recurs_fall {f : Nat → Nat} {n : Nat} (hle : ∀ m, n ≤ m → f (m + 1) ≤ f m) :
    ¬ recurs (fun m => f (m + 1) < f m) := by
  intro hfall
  have hanti : AntitoneOn f (Set.Ici n) := antitoneOn_nat_Ici_of_succ_le hle
  have hnone : ∀ v m, n ≤ m → f m ≠ v := by
    intro v
    induction v using Nat.strong_induction_on with
    | _ v ih =>
      rintro m hm rfl
      obtain ⟨k, hmk, hk⟩ := hfall m
      have hkm : f k ≤ f m := hanti hm (hm.trans hmk) hmk
      exact ih (f (k + 1)) (hk.trans_le hkm) (k + 1) (by omega) rfl
  exact hnone (f n) n (Nat.le_refl n) rfl

/-- A timer that ticks count down again and again, and that nothing raises unless it is written, comes to 0 or is
written. -/
theorem timer_expires_or_written {ops : Nat → PortOp} {timer : Nat → Byte} {written : Nat → Prop}
    (hticks : ticksKeepOccurring ops) (hstep : ∀ m, timer (m + 1) = (ops m).onTimer (timer m) ∨ written m) (n : Nat) :
    ∃ m, n ≤ m ∧ (timer m = 0#8 ∨ written m) := by
  by_contra hnever
  push Not at hnever
  have hnext : ∀ m, n ≤ m → timer (m + 1) = (ops m).onTimer (timer m) := fun m hm =>
    (hstep m).resolve_right (hnever m hm).2
  refine not_recurs_fall (f := fun m => (timer m).toNat) (n := n) (fun m hm => ?_) (fun l => ?_)
  · rw [hnext m hm]
    exact PortOp.onTimer_le _ _
  · obtain ⟨m, hm, htick⟩ := hticks (max n l)
    have hnm : n ≤ m := (Nat.le_max_left n l).trans hm
    refine ⟨m, (Nat.le_max_right n l).trans hm, ?_⟩
    show (timer (m + 1)).toNat < (timer m).toNat
    rw [hnext m hnm, htick]
    exact PortOp.onTimer_tick_lt (hnever m hnm).1

/-! The statements -/

/-- Settles O52: the sequence is built by performing the transactions one by one, each of which an initialised machine
answers with an initialised state. -/
theorem everyInterleavingIsARun : Obligations.EveryInterleavingIsARun := by
  intro s ops h
  have hinit := statesFrom_initialised ops h
  exact ⟨statesFrom s ops, rfl, fun k => (statesFrom_succ (hinit k)).1, hinit⟩

/-- Settles O53: between two writes a timer never rises and every tick lowers it. -/
theorem timersExpireIfTicksKeepOccurring : Obligations.TimersExpireIfTicksKeepOccurring := by
  intro ops states n hrun hticks
  have hstep := fun m => portStep_timers (hrun.portStep_eq m)
  constructor
  · refine timer_expires_or_written hticks (fun m => (hstep m).1.imp_right ?_) n
    exact fun ⟨hop, x, hx⟩ => ⟨x, hop, hx⟩
  · refine timer_expires_or_written hticks (fun m => (hstep m).2.imp_right ?_) n
    exact fun ⟨hop, x, hx⟩ => ⟨x, hop, hx⟩

/-- Settles O54: the wait lasts until the next step, which ends it. -/
theorem keyWaitEndsIfStepsKeepOccurring : Obligations.KeyWaitEndsIfStepsKeepOccurring := by
  intro ops states n x prev hrun hsteps hwait hlevel hkeys
  by_contra hnever
  push Not at hnever
  have hnext : ∀ m, n ≤ m → (states m).run = .waitKey x prev → (states m).params.fx0aTrigger = .level →
      ops m ≠ .step ∧ (states (m + 1)).run = .waitKey x prev ∧ (states (m + 1)).params.fx0aTrigger = .level :=
    fun m hm hw hl =>
      (portStep_of_level_wait (hrun.portStep_eq m) hw hl (hkeys m hm)).resolve_left (hnever (m + 1) (by omega))
  have hwaits : ∀ m, n ≤ m → (states m).run = .waitKey x prev ∧ (states m).params.fx0aTrigger = .level := by
    intro m hm
    induction m, hm using Nat.le_induction with
    | base => exact ⟨hwait, hlevel⟩
    | succ m hm ih => exact (hnext m hm ih.1 ih.2).2
  obtain ⟨m, hm, hop | ⟨c, w, hhalted⟩⟩ := hsteps n
  · exact (hnext m hm (hwaits m hm).1 (hwaits m hm).2).1 hop
  · cases (hwaits m hm).1.symm.trans hhalted

end Sys2Proof.Machine
end

section
/-! What an instruction that ends may write, by the tables of writers (10_state.md R22, R25, R28, R31), what every
transaction keeps, and that bits 15-12 of I are never read (10_state.md R27). -/

namespace Sys2Proof.Machine

/-! What an instruction that ends has written -/

/-- u is s after writes that instruction i may make, each field by its own table of writers; PC and step_result are left
to the instruction's end. A field that is not given when the structure is built is unchanged. -/
structure Writes (i : Instr) (s u : State) : Prop where
  frame : u = { s with v := u.v, i := u.i, stack := u.stack, dt := u.dt, st := u.st, mem := u.mem, fb := u.fb,
                       frameReady := u.frameReady, draws := u.draws } := by rfl
  reg : ∀ z, writesReg i z = false → (setsFlag i = false ∨ z ≠ vF) → u.reg z = s.reg z := by intros; rfl
  flag : setsFlag i = true → ∃ c, u.reg vF = flagByte c := by exact nofun
  stack : u.stack = s.stack ∨ (∃ nnn a, i = .call nnn ∧ s.stackFull = false ∧ u.stack = a :: s.stack) ∨
    (i = .ret ∧ ∃ a, s.stack = a :: u.stack) := by exact .inl rfl
  mem : u.mem = s.mem ∨ storesMemory i = true ∧ ∃ a bytes, u.mem = (s.memWrites a bytes).mem := by exact .inl rfl
  fb : (u.fb = s.fb ∧ u.frameReady = s.frameReady) ∨
    writesFramebuffer i = true ∧ (u.fb.length = s.fb.length ∨ u.fb = clearFb s.params) := by
    exact .inl ⟨rfl, rfl⟩
  index : u.i = s.i ∨ writesIndex i = true := by exact .inl rfl
  draws : u.draws = s.draws ∨ u.draws = s.draws + 1 ∧ ((∃ x nn, i = .rnd x nn) ∨ ∃ x, i = .ldVxK x) := by
    exact .inl rfl

/-- Writes to the register file alone. -/
theorem Writes.of_v {i : Instr} {s u : State} (hu : u = { s with v := u.v })
    (hreg : ∀ z, writesReg i z = false → (setsFlag i = false ∨ z ≠ vF) → u.reg z = s.reg z)
    (hflag : setsFlag i = true → ∃ c, u.reg vF = flagByte c) : Writes i s u := by
  generalize u.v = w at hu
  subst hu
  exact { reg := hreg, flag := hflag }

/-- The ALU writes V[x] and, where its function has a flag, VF (41_alu.md R120, R122). -/
theorem Writes.of_applyAlu {i : Instr} {s : State} {f : AluFn} {x : RegIdx} {b : Byte}
    (hx : ∀ z, writesReg i z = (z == x)) (hf : setsFlag i = (aluFlag f (s.reg x) b).isSome) :
    Writes i s (s.applyAlu f x b) := by
  obtain ⟨hframe, hflag, -, hother⟩ := s.applyAlu_spec f x b
  refine .of_v hframe (fun z hz hv => hother z ?_ ?_) fun h => ?_
  · simpa [hx] using hz
  · simpa [hf] using hv
  · obtain ⟨c, hc⟩ := Option.isSome_iff_exists.1 (hf.symm.trans h)
    exact ⟨c, hflag c hc⟩

/-- A write to one register, with a free value drawn for it or not. -/
theorem Writes.of_setReg {i : Instr} {s : State} {x : RegIdx} {b : Byte} {d : Nat} (hx : writesReg i x = true)
    (hf : setsFlag i = false)
    (hd : d = s.draws ∨ d = s.draws + 1 ∧ ((∃ x nn, i = .rnd x nn) ∨ ∃ x, i = .ldVxK x)) :
    Writes i s (State.setReg { s with draws := d } x b) where
  reg z hz _ := State.reg_setReg_other _ b fun e => by rw [e, hx] at hz; cases hz
  flag h := by rw [hf] at h; cases h
  draws := hd

/-- A run of stores by an instruction that stores. -/
theorem Writes.of_memWrites {i : Instr} (hm : storesMemory i = true) (hf : setsFlag i = false) (s : State) (a : Nat)
    (bytes : List Byte) : Writes i s (s.memWrites a bytes) := by
  have hmem : ∃ a' bytes', (s.memWrites a bytes).mem = (s.memWrites a' bytes').mem := ⟨a, bytes, rfl⟩
  rw [State.memWrites_frame]
  exact { flag := by rw [hf]; exact nofun, mem := .inr ⟨hm, hmem⟩ }

/-- A drawing, and then the flag (43_display.md R171, R174). -/
theorem Writes.of_draw {i : Instr} {s : State} {fb : Framebuffer} {c : Bool} (hf : setsFlag i = true)
    (hw : writesFramebuffer i = true) (hl : fb.length = s.fb.length) : Writes i s ((s.present fb).setFlag c) where
  reg z _ hz := State.reg_setReg_other _ _ (hz.resolve_left (ne_false_of_eq_true hf))
  flag _ := ⟨c, State.reg_setReg_same _ _ _⟩
  fb := .inr ⟨hw, .inl hl⟩

/-- Taking a key writes V[x], draws at most one free value, and ends the instruction (44_keys_timers.md R196). -/
theorem State.takeKey_eq_finish (s : State) (x : RegIdx) (k : KeyIdx) (rest : List KeyIdx) :
    ∃ d b, (d = s.draws ∨ d = s.draws + 1) ∧
      s.takeKey x k rest = (State.setReg { s with draws := d } x b).finish 2 := by
  unfold State.takeKey
  cases s.params.fx0aKeyChoice with
  | lowest => exact ⟨s.draws, _, .inl rfl, rfl⟩
  | any => exact ⟨s.draws + 1, _, .inr rfl, rfl⟩

/-! Where an instruction that ends leaves PC -/

/-- A skip instruction does nothing but skip on its condition (40_control_flow.md R106 to R109; 44_keys_timers.md R191,
R192). -/
theorem exec_of_skipCondition {i : Instr} {s : State} {c : Bool} (h : skipCondition i s = some c) :
    exec i s = .next (s.skipIf c) := by
  cases i <;> cases h
  case sneImm | sneReg => rw [decide_not]; rfl
  all_goals rfl

theorem nextPc_of_skipCondition {i : Instr} {s : State} {c : Bool} (h : skipCondition i s = some c) :
    nextPc i s = (s.pc.toNat + if c then 4 else 2) % 4096 := by
  have hclass : nextPc i s =
      match skipCondition i s with
      | some true => (s.pc.toNat + 4) % 4096
      | _ => (s.pc.toNat + 2) % 4096 := by
    cases i <;> cases h <;> rfl
  rw [hclass, h]
  cases c <;> rfl

/-- The instruction ended: after its writes PC is where its class says (10_state.md R25). -/
def Completes (i : Instr) (s t : State) : Prop := ∃ u a, t = u.finishAt a ∧ a % 4096 = nextPc i s ∧ Writes i s u

/-- A skip instruction ends and writes nothing before its end. -/
theorem completes_of_skipCondition {i : Instr} {s t : State} {c : Bool} (hc : skipCondition i s = some c)
    (h : exec i s = .next t) : Completes i s t := by
  rw [exec_of_skipCondition hc] at h
  cases h
  refine ⟨s, _, rfl, (nextPc_of_skipCondition hc).symm, { flag := ?_ }⟩
  cases i <;> cases hc <;> exact nofun

/-- exec_kinds with the tables of writers (10_state.md R22, R25, R28, R31; 20_memory.md R55): the next state is that of
a core fault, of the wait of FX0A, or of an instruction that ended. -/
theorem exec_outcomes {i : Instr} {s t : State} (h : exec i s = .next t) :
    (∃ c, t = s.raiseFault c (encode i)) ∨ (∃ x, i = .ldVxK x ∧ t = s.waitForKey x) ∨ Completes i s t := by
  cases i
  case seImm | sneImm | seReg | sneReg | skp | sknp => exact .inr (.inr (completes_of_skipCondition rfl h))
  case ldImm | addImm | ldReg | orReg | andReg | xorReg | addReg | sub | shr | subn | shl =>
    cases h
    exact .inr (.inr ⟨_, _, rfl, rfl, .of_applyAlu (fun _ => rfl) rfl⟩)
  case ret =>
    rw [exec, execRet] at h
    split at h <;> cases h
    · exact .inl ⟨_, rfl⟩
    · next a rest hstack =>
      refine .inr (.inr ⟨_, _, rfl, ?_, { stack := .inr (.inr ⟨rfl, a, hstack⟩) }⟩)
      rw [nextPc, hstack]
      exact Nat.mod_eq_of_lt a.isLt
  case call nnn =>
    rw [exec, execCall] at h
    split at h <;> cases h
    · exact .inl ⟨_, rfl⟩
    · next hfull =>
      have hroom : s.stackFull = false := by simpa using hfull
      refine .inr (.inr ⟨_, _, rfl, Nat.mod_eq_of_lt nnn.isLt, ?_⟩)
      exact { stack := .inr (.inl ⟨nnn, _, rfl, hroom, rfl⟩) }
  case jp nnn => cases h; exact .inr (.inr ⟨_, _, rfl, Nat.mod_eq_of_lt nnn.isLt, {}⟩)
  case cls => cases h; exact .inr (.inr ⟨_, _, rfl, rfl, { fb := .inr ⟨rfl, .inr rfl⟩ }⟩)
  case drw x y n =>
    rw [exec, execDrw] at h
    split at h <;> cases h
    · exact .inl ⟨_, rfl⟩
    · exact .inr (.inr ⟨_, _, rfl, rfl, .of_draw rfl rfl (s.length_drawSprite _ _ _)⟩)
  case rnd x nn =>
    cases h
    exact .inr (.inr ⟨_, _, rfl, rfl, .of_setReg (beq_self_eq_true x) rfl (.inr ⟨rfl, .inl ⟨x, nn, rfl⟩⟩)⟩)
  case ldVxDt x =>
    cases h
    exact .inr (.inr ⟨_, _, rfl, rfl, .of_setReg (beq_self_eq_true x) rfl (.inl rfl)⟩)
  case ldVxK x =>
    rw [exec, execLdVxK] at h
    split at h <;> cases h
    · exact .inr (.inl ⟨x, rfl, rfl⟩)
    · next k rest _ =>
      obtain ⟨d, b, hd, e⟩ := s.takeKey_eq_finish x k rest
      rw [e]
      have hw : Writes (.ldVxK x) s (State.setReg { s with draws := d } x b) :=
        .of_setReg (beq_self_eq_true x) rfl (hd.imp_right fun h => ⟨h, .inr ⟨x, rfl⟩⟩)
      exact .inr (.inr ⟨_, _, rfl, rfl, hw⟩)
  case ldI | addI | ldF => cases h; exact .inr (.inr ⟨_, _, rfl, rfl, { index := .inr rfl }⟩)
  case sys | jpV0 | ldDt | ldSt => cases h; exact .inr (.inr ⟨_, _, rfl, rfl, {}⟩)
  case ldB | stI =>
    cases h
    refine .inr (.inr ⟨_, _, rfl, ?_, .of_memWrites rfl rfl s _ _⟩)
    rw [State.memWrites_frame]
    rfl
  case ldVxI x =>
    cases h
    refine .inr (.inr ⟨_, _, rfl, ?_, .of_v (s.loadBlock_frame x) (fun z hz _ => ?_) nofun⟩)
    · rw [State.loadBlock_frame]; rfl
    · rw [State.loadBlock, blockIndices, State.reg_loads _ _ x.isLt, if_neg]
      simpa [writesReg, Nat.lt_succ_iff] using hz

/-! Polls -/

/-- A poll goes on waiting, or takes a key and ends the wait (44_keys_timers.md R195). -/
theorem State.pollKeys_cases (s : State) (x : RegIdx) (prev : Keys) :
    s.pollKeys x prev = s.waitForKey x ∨ ∃ k rest, s.pollKeys x prev = { s.takeKey x k rest with run := .run } := by
  unfold State.pollKeys
  split
  · exact .inl rfl
  · next k rest _ => exact .inr ⟨k, rest, rfl⟩

/-- A poll moves PC by 2 when it ends the wait and not before (10_state.md R25). -/
theorem State.pollKeys_pc (s : State) (x : RegIdx) (prev : Keys) :
    ((s.pollKeys x prev).stepResult = some .waiting ∧ (s.pollKeys x prev).pc = s.pc) ∨
    ((s.pollKeys x prev).stepResult = some .executed ∧ (s.pollKeys x prev).pc.toNat = (s.pc.toNat + 2) % 4096) := by
  obtain e | ⟨k, rest, e⟩ := s.pollKeys_cases x prev
  · exact .inl (by rw [e]; exact ⟨rfl, rfl⟩)
  · obtain ⟨d, b, -, htake⟩ := s.takeKey_eq_finish x k rest
    exact .inr (by rw [e, htake]; exact ⟨rfl, State.finish_pc_toNat _ 2⟩)

/-! What each instruction may write -/

/-- Settles O43, by the three kinds of outcome: only an instruction that ended answers Executed. -/
theorem pcFollowsTheInstructionClass : Obligations.PcFollowsTheInstructionClass := by
  refine ⟨fun i s t h => ?_, ?_⟩
  · obtain ⟨c, rfl⟩ | ⟨x, -, rfl⟩ | ⟨u, a, rfl, hpc, -⟩ := exec_outcomes h
    · exact ⟨nofun, fun _ => rfl⟩
    · exact ⟨nofun, fun _ => rfl⟩
    · exact ⟨fun _ => (State.finishAt_pc_toNat u a).trans hpc, fun hne => absurd rfl hne⟩
  · rintro x prev s t rfl
    obtain ⟨hr, hpc⟩ | ⟨hr, hpc⟩ := s.pollKeys_pc x prev
    · exact ⟨fun he => (nomatch hr.symm.trans he), fun _ => hpc⟩
    · exact ⟨fun _ => hpc, fun hne => absurd hr hne⟩

/-- Settles O44: a fault and a wait write no register, and an instruction that ends writes by the table. -/
theorem registersAreWrittenByTheTable : Obligations.RegistersAreWrittenByTheTable := by
  intro i s t h
  obtain ⟨c, rfl⟩ | ⟨x, -, rfl⟩ | ⟨u, a, rfl, -, hw⟩ := exec_outcomes h
  · exact ⟨fun _ _ _ => rfl, fun _ => nofun⟩
  · exact ⟨fun _ _ _ => rfl, fun _ => nofun⟩
  · refine ⟨hw.reg, fun hf _ => ?_⟩
    obtain ⟨c, hc⟩ := hw.flag hf
    cases c
    · exact .inl hc
    · exact .inr hc

/-- Settles O45: a fault and a wait leave the stack, and an instruction that ends changes it by the table. -/
theorem onlyCallPushesAndOnlyRetPops : Obligations.OnlyCallPushesAndOnlyRetPops := by
  intro i s t h
  obtain ⟨c, rfl⟩ | ⟨x, -, rfl⟩ | ⟨u, a, rfl, -, hw⟩ := exec_outcomes h
  · exact .inl rfl
  · exact .inl rfl
  · obtain hsame | ⟨nnn, b, hi, -, hpush⟩ | hpop := hw.stack
    · exact .inl hsame
    · exact .inr (.inl ⟨nnn, b, hi, hpush⟩)
    · exact .inr (.inr hpop)

/-- Settles O46: each field is unchanged or its instruction is in the table of its writers. -/
theorem memoryDisplayIndexAndTimersHaveTheirWriters : Obligations.MemoryDisplayIndexAndTimersHaveTheirWriters := by
  intro i s t h
  obtain ⟨hdt, hst⟩ := exec_timers h
  suffices hrest : t.params = s.params ∧ (t.mem = s.mem ∨ storesMemory i = true) ∧
      ((t.fb = s.fb ∧ t.frameReady = s.frameReady) ∨ writesFramebuffer i = true) ∧
      (t.i = s.i ∨ writesIndex i = true) by
    obtain ⟨hparams, hmem, hfb, hindex⟩ := hrest
    refine ⟨fun hno => ?_, fun hno => hfb.resolve_right (ne_true_of_eq_false hno),
      fun hno => hindex.resolve_right (ne_true_of_eq_false hno),
      fun hno => hdt.resolve_right fun ⟨x, hx⟩ => hno x hx, fun hno => hst.resolve_right fun ⟨x, hx⟩ => hno x hx⟩
    have hsame := hmem.resolve_right (ne_true_of_eq_false hno)
    exact ⟨hsame, State.memRead_congr hparams hsame⟩
  obtain ⟨c, rfl⟩ | ⟨x, -, rfl⟩ | ⟨u, a, rfl, -, hw⟩ := exec_outcomes h
  · exact ⟨rfl, .inl rfl, .inl ⟨rfl, rfl⟩, .inl rfl⟩
  · exact ⟨rfl, .inl rfl, .inl ⟨rfl, rfl⟩, .inl rfl⟩
  · have hparams : u.params = s.params := by rw [hw.frame]
    exact ⟨hparams, hw.mem.imp_right And.left, hw.fb.imp_right And.left, hw.index⟩

/-- Settles O47: none of these fields is among those that an instruction writes before it ends, but for the draws. -/
theorem noInstructionWritesInputsOrParameters : Obligations.NoInstructionWritesInputsOrParameters := by
  intro i s t h
  obtain ⟨c, rfl⟩ | ⟨x, -, rfl⟩ | ⟨u, a, rfl, -, hw⟩ := exec_outcomes h
  · exact ⟨rfl, rfl, rfl, rfl, rfl, rfl, rfl, .inl rfl, fun _ _ => rfl⟩
  · exact ⟨rfl, rfl, rfl, rfl, rfl, rfl, rfl, .inl rfl, fun _ _ => rfl⟩
  · have hnone : (∀ x nn, i ≠ .rnd x nn) → (∀ x, i ≠ .ldVxK x) → u.draws = s.draws := fun hrnd hkey =>
      hw.draws.resolve_right fun ⟨_, hi⟩ => hi.elim (fun ⟨x, nn, e⟩ => hrnd x nn e) (fun ⟨x, e⟩ => hkey x e)
    have hdraws : u.draws = s.draws ∨ u.draws = s.draws + 1 := hw.draws.imp_right And.left
    rw [hw.frame]
    exact ⟨rfl, rfl, rfl, rfl, rfl, rfl, rfl, hdraws, hnone⟩

/-! The transactions -/

/-- Settles O42: the step is the transaction of the Input Source, guarded by nothing. -/
theorem setKeysChangesTheKeysOnly : Obligations.SetKeysChangesTheKeysOnly := by
  intro s keys hop
  rw [step_eq_portStep, hop]
  rfl

/-! The invariant -/

theorem State.stackWithinLimit_iff (s : State) :
    s.stackWithinLimit ↔ ∀ n, s.params.stackLimit = some n → s.stack.length ≤ n := by
  unfold State.stackWithinLimit
  cases s.params.stackLimit <;> simp

/-- Stores of an instruction keep memory's canonical form. -/
theorem Writes.mem_wf {i : Instr} {s u : State} (hw : Writes i s u) (h : Memory.wf s.params.fontRom s.mem = true) :
    Memory.wf s.params.fontRom u.mem = true := by
  obtain hsame | ⟨-, a, bytes, hstored⟩ := hw.mem
  · rwa [hsame]
  · rw [hstored]
    exact s.wf_memWrites a bytes h

/-- Drawing keeps the framebuffer's size. -/
theorem Writes.fb_length {i : Instr} {s u : State} (hw : Writes i s u)
    (h : s.fb.length = s.params.displayW * s.params.displayH) :
    u.fb.length = s.params.displayW * s.params.displayH := by
  obtain ⟨hsame, -⟩ | ⟨-, hdrawn | hcleared⟩ := hw.fb
  · rwa [hsame]
  · rwa [hdrawn]
  · rw [hcleared]
    exact List.length_replicate

/-- A push is made only where the stack has room (10_state.md R28). -/
theorem Writes.stack_length_le {i : Instr} {s u : State} (hw : Writes i s u) {n : Nat}
    (hn : s.params.stackLimit = some n) (h : s.stack.length ≤ n) : u.stack.length ≤ n := by
  obtain hsame | ⟨nnn, a, -, hroom, hpush⟩ | ⟨-, a, hpop⟩ := hw.stack
  · rwa [hsame]
  · have hne : n ≠ s.stack.length := by simpa [State.stackFull, hn] using hroom
    rw [hpush, List.length_cons]
    omega
  · rw [hpop, List.length_cons] at h
    omega

/-- Every instruction keeps the machine coherent: an end of one writes PC mod 4096 (10_state.md R24). -/
theorem exec_coherent {i : Instr} {s t : State} (h : exec i s = .next t) (hs : s.coherent) : t.coherent := by
  obtain ⟨c, rfl⟩ | ⟨x, -, rfl⟩ | ⟨u, a, rfl, -, hw⟩ := exec_outcomes h
  · exact hs
  · exact hs
  · obtain ⟨-, hmem, hfb, hstack⟩ := hs
    have hparams : (u.finishAt a).params = s.params := by rw [State.finishAt_params, hw.frame]
    refine ⟨?_, ?_, ?_, (State.stackWithinLimit_iff _).2 fun n hn => ?_⟩
    · rw [State.finishAt_pc_toNat]
      exact Nat.mod_lt _ (by decide)
    · rw [hparams]
      exact hw.mem_wf hmem
    · rw [hparams]
      exact hw.fb_length hfb
    · rw [hparams] at hn
      exact hw.stack_length_le hn ((State.stackWithinLimit_iff s).1 hstack n hn)

theorem State.pollKeys_coherent {s : State} (x : RegIdx) (prev : Keys) (hs : s.coherent) :
    (s.pollKeys x prev).coherent := by
  obtain ⟨hpc, hrest⟩ := hs
  have hpc' : (s.pollKeys x prev).pc.toNat < 4096 := by
    obtain ⟨-, e⟩ | ⟨-, e⟩ := s.pollKeys_pc x prev
    · rwa [e]
    · exact e ▸ Nat.mod_lt _ (by decide)
  rw [State.pollKeys_frame]
  exact ⟨hpc', hrest⟩

/-- step() keeps the parameters and the coherence of the machine, in every run state. -/
theorem instructionStep_coherent {s t : State} (h : instructionStep s = .next t) (hs : s.coherent) :
    t.params = s.params ∧ t.coherent := by
  unfold instructionStep at h
  split at h
  · unfold fetchExecute at h
    split at h
    · cases h; exact ⟨rfl, hs⟩
    · obtain ⟨-, hparams, -⟩ := noInstructionWritesInputsOrParameters _ _ _ h
      exact ⟨hparams, exec_coherent h hs⟩
  · next x prev _ =>
    cases h
    exact ⟨by rw [State.pollKeys_frame], State.pollKeys_coherent x prev hs⟩
  · cases h; exact ⟨rfl, hs⟩

/-- A machine is coherent right after reset, whatever its parameters (70_reset_and_hazards.md R250). -/
theorem State.resetWith_coherent (p : Params) : (State.resetWith p).coherent :=
  ⟨(by decide : (0x0200#16 : Word).toNat < 4096), rfl, List.length_replicate,
    (State.stackWithinLimit_iff _).2 fun n _ => Nat.zero_le n⟩

theorem State.hostLoad_coherent {s : State} (bytes : List Byte) (hs : s.coherent) : (s.hostLoad bytes).coherent := by
  unfold State.hostLoad
  split
  · exact hs
  · obtain ⟨hpc, hmem, hrest⟩ := hs
    have hmem' := s.wf_memWrites 0x200 bytes hmem
    rw [State.memWrites_frame]
    exact ⟨hpc, hmem', hrest⟩

theorem State.resume_coherent {s : State} (mode : ResumeMode) (hs : s.coherent) : (s.resume mode).coherent := by
  unfold State.resume
  split
  · cases mode
    case retry => exact hs
    case skip =>
      obtain ⟨-, hrest⟩ := hs
      exact ⟨(State.setPc_pc_toNat s _).trans_lt (Nat.mod_lt _ (by decide)), hrest⟩
  · exact hs
  · exact hs

/-- Every transaction keeps the invariant. -/
theorem portStep_inv {op : PortOp} {s t : State} (hs : s.Inv) (h : portStep op s = .next t) : t.Inv := by
  obtain ⟨hwf, hcoherent⟩ := hs
  cases op <;> simp only [portStep, afterReset_eq_next_iff] at h
  case step =>
    obtain ⟨hinit, h⟩ := h
    obtain ⟨hparams, ht⟩ := instructionStep_coherent h (hcoherent hinit)
    exact ⟨hparams ▸ hwf, fun _ => ht⟩
  case tick => cases h.2; exact ⟨hwf, hcoherent⟩
  case reset => cases h; exact ⟨hwf, fun _ => State.resetWith_coherent s.params⟩
  case load bytes =>
    obtain ⟨hinit, h⟩ := h
    cases h
    exact ⟨by rw [State.hostLoad_frame]; exact hwf, fun _ => State.hostLoad_coherent bytes (hcoherent hinit)⟩
  case resume mode =>
    obtain ⟨hinit, h⟩ := h
    cases h
    exact ⟨by rw [State.resume_frame]; exact hwf, fun _ => State.resume_coherent mode (hcoherent hinit)⟩
  case setKeys keys => cases h; exact ⟨hwf, hcoherent⟩

/-- Settles O49: the default parameters are legal, and reset makes any machine coherent. -/
theorem resetMeetsTheInvariant : Obligations.ResetMeetsTheInvariant := by
  have hrate : ∀ r, TimerRate.isHz (.hz 60) r → 0 < r := by
    rintro r rfl
    norm_num
  exact ⟨⟨trivial, by decide, by decide, hrate⟩, fun _ => State.resetWith_coherent _⟩

/-- Settles O50: a step is one transaction, and each transaction keeps the invariant. -/
theorem stepKeepsTheInvariant : Obligations.StepKeepsTheInvariant := by
  intro s t hs h
  rw [step_eq_portStep] at h
  exact portStep_inv (s := s.taken) hs h

/-! Indifference to bits 15-12 of I: every address formed from I is taken mod 4096 (20_memory.md R51) -/

theorem cellOf_add_congr {a b : Nat} (h : cellOf a = cellOf b) (k : Nat) : cellOf (a + k) = cellOf (b + k) :=
  Nat.ModEq.add_right k h

theorem agreeButHighI_setI {s : State} {j : Word} (hj : cellOf j.toNat = cellOf s.i.toNat) :
    agreeButHighI (.next s) (.next (s.setI j)) := ⟨s, s.setI j, rfl, rfl, rfl, hj⟩

theorem agreeButHighI_self (s : State) : agreeButHighI (.next s) (.next s) := ⟨s, s, rfl, rfl, rfl, rfl⟩

/-! Operations on a state with another I -/

/-- Stores at addresses of the same cells are the same stores. -/
theorem State.memWrites_cell (s : State) {a b : Nat} (h : cellOf a = cellOf b) (bytes : List Byte) :
    s.memWrites a bytes = s.memWrites b bytes := by
  induction bytes generalizing s a b with
  | nil => rfl
  | cons c rest ih =>
    have hone : s.memWrite a c = s.memWrite b c := by simp only [State.memWrite, h]
    rw [State.memWrites, State.memWrites, hone, ih _ (cellOf_add_congr h 1)]

theorem State.memWrites_setI (s : State) (j : Word) (a : Nat) (bytes : List Byte) :
    (s.setI j).memWrites a bytes = (s.memWrites a bytes).setI j := by
  induction bytes generalizing s a with
  | nil => rfl
  | cons c rest ih => exact ih (s.memWrite a c) (a + 1)

theorem State.loads_setI (s : State) {j : Word} (hj : cellOf j.toNat = cellOf s.i.toNat) (ks : List Nat) :
    ks.foldl State.loadIndexed (s.setI j) = (ks.foldl State.loadIndexed s).setI j := by
  induction ks generalizing s with
  | nil => rfl
  | cons k rest ih =>
    have hone : (s.setI j).loadIndexed k = (s.loadIndexed k).setI j := by
      simp only [State.loadIndexed, State.setI_i, State.setI_memRead, s.memRead_cell (cellOf_add_congr hj k)]
      rfl
    rw [List.foldl_cons, List.foldl_cons, hone]
    exact ih (s.loadIndexed k) hj

theorem State.spriteByte_setI (s : State) {j : Word} (hj : cellOf j.toNat = cellOf s.i.toNat) :
    (s.setI j).spriteByte = s.spriteByte :=
  funext fun row => s.memRead_cell (cellOf_add_congr hj row)

theorem State.drawSprite_setI (s : State) {j : Word} (hj : cellOf j.toNat = cellOf s.i.toNat) (cx cy n : Nat) :
    (s.setI j).drawSprite cx cy n = s.drawSprite cx cy n := by
  unfold State.drawSprite
  rw [s.spriteByte_setI hj]
  rfl

theorem State.rowOutOfRange_setI (s : State) {j : Word} (hj : cellOf j.toNat = cellOf s.i.toNat) (cy n : Nat) :
    (s.setI j).rowOutOfRange cy n = s.rowOutOfRange cy n := by
  unfold State.rowOutOfRange
  rw [s.spriteByte_setI hj]
  rfl

theorem State.takeKey_setI (s : State) (j : Word) (x : RegIdx) (k : KeyIdx) (rest : List KeyIdx) :
    (s.setI j).takeKey x k rest = (s.takeKey x k rest).setI j := by
  unfold State.takeKey
  rw [State.setI_params]
  cases s.params.fx0aKeyChoice <;> rfl

/-- I + V[x] keeps the cell of I + V[x] when I keeps its own (42_index_memory.md R151). -/
theorem cellOf_indexPlus {i j : Word} (hj : cellOf j.toNat = cellOf i.toNat) (b : Byte) :
    cellOf (indexPlus j b).toNat = cellOf (indexPlus i b).toNat := by
  simp only [indexPlus, BitVec.toNat_ofNat, cellOf] at *
  omega

/-- An instruction that stores from I on (42_index_memory.md R153, R154). -/
theorem agreeButHighI_stores (s : State) {j : Word} (hj : cellOf j.toNat = cellOf s.i.toNat) (bytes : List Byte) :
    agreeButHighI (.next ((s.memWrites s.i.toNat bytes).finish 2))
      (.next (((s.setI j).memWrites j.toNat bytes).finish 2)) := by
  rw [(s.setI j).memWrites_cell hj, State.memWrites_setI]
  refine agreeButHighI_setI (s := (s.memWrites s.i.toNat bytes).finish 2) ?_
  rwa [State.finish_i, State.memWrites_frame]

/-- A poll reads nothing of I. -/
theorem State.pollKeys_setI (s : State) (j : Word) (x : RegIdx) (prev : Keys) :
    (s.setI j).pollKeys x prev = (s.pollKeys x prev).setI j := by
  unfold State.pollKeys
  rw [State.setI_params, State.setI_keys]
  split
  · rfl
  · rw [State.takeKey_setI]
    rfl

theorem State.hostLoad_setI (s : State) (j : Word) (bytes : List Byte) :
    (s.setI j).hostLoad bytes = (s.hostLoad bytes).setI j := by
  unfold State.hostLoad
  split
  · rfl
  · rw [State.memWrites_setI]
    rfl

theorem State.resume_setI (s : State) (j : Word) (mode : ResumeMode) :
    (s.setI j).resume mode = (s.resume mode).setI j := by
  unfold State.resume
  rw [State.setI_run]
  split
  · cases mode <;> rfl
  · rfl
  · rfl

/-! Steps of states that agree in everything but bits 15-12 of I -/

/-- Only ADD.I carries bits of I over, and its sum's cell depends on I's cell alone. -/
theorem exec_agreeButHighI (i : Instr) {s : State} {j : Word} (hj : cellOf j.toNat = cellOf s.i.toNat) :
    agreeButHighI (exec i s) (exec i (s.setI j)) := by
  cases i
  case ldI | ldF => exact agreeButHighI_self _
  case addI x => exact ⟨_, _, rfl, rfl, rfl, cellOf_indexPlus hj _⟩
  case ldB | stI => exact agreeButHighI_stores s hj _
  case ldVxI x =>
    rw [exec, exec, execLdVxI, execLdVxI, State.loadBlock, State.loadBlock, s.loads_setI hj]
    refine agreeButHighI_setI (s := State.finish _ 2) ?_
    rwa [State.finish_i, State.loads_frame]
  case drw x y n =>
    simp only [exec, execDrw, s.rowOutOfRange_setI hj, s.drawSprite_setI hj, State.setI_reg]
    split <;> exact agreeButHighI_setI hj
  case ret =>
    rw [exec, exec, execRet, execRet, State.setI_stack]
    split <;> exact agreeButHighI_setI hj
  case call nnn =>
    have hfull : (s.setI j).stackFull = s.stackFull := rfl
    rw [exec, exec, execCall, execCall, hfull]
    split <;> exact agreeButHighI_setI hj
  case ldVxK x =>
    have hkeys : (s.setI j).firstKeys = s.firstKeys := rfl
    rw [exec, exec, execLdVxK, execLdVxK, hkeys]
    split
    · exact agreeButHighI_setI hj
    · rw [State.takeKey_setI]
      refine agreeButHighI_setI ?_
      rwa [State.takeKey_frame]
  all_goals exact agreeButHighI_setI hj

theorem instructionStep_agreeButHighI {s : State} {j : Word} (hj : cellOf j.toNat = cellOf s.i.toNat) :
    agreeButHighI (instructionStep s) (instructionStep (s.setI j)) := by
  unfold instructionStep
  rw [State.setI_run]
  split
  · have hfetch : (s.setI j).fetchWord = s.fetchWord := rfl
    unfold fetchExecute
    rw [hfetch]
    split
    · exact agreeButHighI_setI hj
    · exact exec_agreeButHighI _ hj
  · rw [State.pollKeys_setI]
    refine agreeButHighI_setI ?_
    rwa [State.pollKeys_frame]
  · exact agreeButHighI_setI hj

theorem portStep_agreeButHighI (op : PortOp) {s : State} {j : Word} (hinit : s.initialised = true)
    (hj : cellOf j.toNat = cellOf s.i.toNat) : agreeButHighI (portStep op s) (portStep op (s.setI j)) := by
  have hinit' : (s.setI j).initialised = true := hinit
  cases op <;> simp only [portStep, afterReset_of_initialised hinit, afterReset_of_initialised hinit']
  case step => exact instructionStep_agreeButHighI hj
  case tick => exact agreeButHighI_setI hj
  case reset => exact agreeButHighI_self _
  case load bytes =>
    rw [State.hostLoad_setI]
    refine agreeButHighI_setI ?_
    rwa [State.hostLoad_frame]
  case resume mode =>
    rw [State.resume_setI]
    refine agreeButHighI_setI ?_
    rwa [State.resume_frame]
  case setKeys keys => exact agreeButHighI_setI hj

/-- Settles O22: a state that agrees in everything but bits 15-12 of I is the state with another I of the same cell, and
every transaction forms its addresses from that cell alone. -/
theorem highBitsOfIChangeNoEffect : Obligations.HighBitsOfIChangeNoEffect := by
  intro s t hinit ⟨hframe, hcell⟩
  rw [step_eq_portStep, step_eq_portStep, hframe]
  exact portStep_agreeButHighI s.nextOp (s := s.taken) hinit hcell

end Sys2Proof.Machine
end

section
/-! Fetches: a step of a running core is the instruction its fetch decodes to (40_control_flow.md R100), and a fetch
reads what was stored last, with no instruction of its own to make the stores visible (20_memory.md R52, R60, R63). -/

namespace Sys2Proof.Machine

/-! The step of a fetched instruction -/

/-- step() of a core that fetches i is i's meaning and nothing around it (40_control_flow.md R100). -/
theorem instructionStep_of_fetches {s : State} {i : Instr} (h : s.fetches i) : instructionStep s = exec i s := by
  obtain ⟨hrun, hdecode⟩ := h
  simp only [instructionStep, hrun, fetchExecute, hdecode]

theorem step_of_fetches {s : State} {i : Instr} (hinit : s.initialised = true) (hop : s.nextOp = .step)
    (h : s.fetches i) : step s = exec i s.taken :=
  (step_of_nextOp_step hinit hop).trans (instructionStep_of_fetches h)

/-! The fetch of stored bytes -/

/-- A stored byte is read back at every address of its cell (20_memory.md R51). -/
theorem State.memRead_memWrites_cell (s : State) {a c k : Nat} {bytes : List Byte} (hl : bytes.length ≤ 4096)
    (hk : k < bytes.length) (hc : cellOf c = cellOf (a + k)) : (s.memWrites a bytes).memRead c = bytes[k] :=
  (State.memRead_cell _ hc).trans (s.memRead_memWrites a bytes hl k hk)

/-- Where PC is the cell of a stored byte that is not the last one, the fetch reads that byte and the next
(20_memory.md R52); PC + 1 wraps as the stores do. -/
theorem State.fetchWord_of_memWrites {s t : State} {a k : Nat} {bytes : List Byte} (hl : bytes.length ≤ 4096)
    (hk : k + 1 < bytes.length) (hmem : ∀ c, t.memRead c = (s.memWrites a bytes).memRead c)
    (hpc : cellOf t.pc.toNat = cellOf (a + k)) : t.fetchWord = wordOfBytes bytes[k] bytes[k + 1] := by
  have hhigh : t.memRead t.pc.toNat = bytes[k] := by
    rw [hmem, s.memRead_memWrites_cell hl (Nat.lt_of_succ_lt hk) hpc]
  have hlow : t.memRead (t.pc.toNat + 1) = bytes[k + 1] := by
    rw [hmem, s.memRead_memWrites_cell hl hk (cellOf_add_congr hpc 1)]
  rw [State.fetchWord, hhigh, hlow]

/-! The register block of FX55 -/

@[simp] theorem State.length_regBlock (s : State) (x : RegIdx) : (s.regBlock x).length = x.toNat + 1 := by
  simp [State.regBlock, blockIndices]

@[simp] theorem State.getElem_regBlock (s : State) (x : RegIdx) (k : Nat) (hk : k < (s.regBlock x).length) :
    (s.regBlock x)[k] = s.regAt k := by
  simp [State.regBlock, blockIndices]

/-! A placed word -/

/-- The state with w placed is s after the stores of w's bytes at PC, ready for the step that fetches it (log entry
7). -/
theorem State.withFetchWord_eq (s : State) (w : Word) :
    s.withFetchWord 16 w.toNat =
      { s.memWrites s.pc.toNat [highByte w, lowByte w] with initialised := true, run := .run, schedule := [] } := by
  rw [State.withFetchWord, Nat.mod_eq_of_lt w.isLt, BitVec.ofNat_toNat, BitVec.setWidth_eq, placeFetchWord]

@[simp] theorem State.withFetchWord_fetchWord (s : State) (w : Word) : (s.withFetchWord 16 w.toNat).fetchWord = w := by
  have hpc : (s.withFetchWord 16 w.toNat).pc = s.pc := by rw [State.withFetchWord_eq, State.memWrites_frame]
  have hmem : ∀ c, (s.withFetchWord 16 w.toNat).memRead c =
      (s.memWrites s.pc.toNat [highByte w, lowByte w]).memRead c := by
    rw [State.withFetchWord_eq]
    exact fun _ => rfl
  calc (s.withFetchWord 16 w.toNat).fetchWord
      = wordOfBytes (highByte w) (lowByte w) :=
        State.fetchWord_of_memWrites (k := 0) (bytes := [highByte w, lowByte w]) (by simp) (by simp) hmem
          (by rw [hpc, Nat.add_zero])
    _ = w := wordOfBytes_bytes w

/-! The statements -/

/-- Settles O21: PC + 2 is the cell of stored byte k, so the next fetch reads bytes k and k + 1 of the block. -/
theorem storedWordIsFetchedNext : Obligations.StoredWordIsFetchedNext := by
  intro x k s hk hcell
  have hlength : (s.regBlock x).length ≤ 4096 := by have := x.isLt; rw [State.length_regBlock]; omega
  have hpc : cellOf ((s.memWrites s.i.toNat (s.regBlock x)).finish 2).pc.toNat = cellOf (s.i.toNat + k) := by
    rw [State.finish_pc_toNat, State.memWrites_frame]
    exact (cellOf_cellOf _).trans hcell
  refine ⟨_, rfl, ?_⟩
  rw [State.fetchWord_of_memWrites hlength (by rw [State.length_regBlock]; omega) (State.finish_memRead _ 2) hpc,
    State.getElem_regBlock, State.getElem_regBlock]

/-- Settles O5: the bytes at PC and PC + 1 are the fetched word. -/
theorem stepRunsTheDecodedInstruction : Obligations.StepRunsTheDecodedInstruction :=
  fun _ _ hinit hop hrun hdecode => step_of_fetches hinit hop ⟨hrun, hdecode⟩

/-- Settles O51: the fetch reads the placed word back, and with an empty schedule the next transaction is step(). -/
theorem placedWordIsRun : Obligations.PlacedWordIsRun := by
  intro s w i hdecode
  have hfetch := s.withFetchWord_fetchWord w
  exact ⟨hfetch, step_of_fetches rfl rfl ⟨rfl, hfetch.symm ▸ hdecode⟩⟩

end Sys2Proof.Machine
end

section
/-! The decoder and the encoder are inverse to each other, and the words that decode to nothing (30_encoding.md R71,
R72, R75 to R83). A fact about a group is stated over the field record alone; the word comes in once, at the end. -/

namespace Sys2Proof

/-! The fields as numbers (R71) -/

theorem fields_op_toNat (w : Word) : (fields w).op.toNat = w.toNat / 4096 := by
  simp only [fields, BitVec.extractLsb'_toNat, Nat.shiftRight_eq_div_pow]
  omega

theorem fields_n_toNat (w : Word) : (fields w).n.toNat = w.toNat % 16 := by
  simp [fields]

theorem fields_nn_toNat (w : Word) : (fields w).nn.toNat = w.toNat % 256 := by
  simp [fields]

/-! A word of a group is the group's nibble and the fields of any format (R72) -/

theorem fmtNNN_of_op {w : Word} {op : Nibble} (h : (fields w).op.toNat = op.toNat) : fmtNNN op (fields w).nnn = w :=
  BitVec.eq_of_toNat_eq h ▸ fmtNNN_fields w

theorem fmtXNN_of_op {w : Word} {op : Nibble} (h : (fields w).op.toNat = op.toNat) :
    fmtXNN op (fields w).x (fields w).nn = w :=
  BitVec.eq_of_toNat_eq h ▸ fmtXNN_fields w

theorem fmtXYN_of_op {w : Word} {op : Nibble} (h : (fields w).op.toNat = op.toNat) :
    fmtXYN op (fields w).x (fields w).y (fields w).n = w :=
  BitVec.eq_of_toNat_eq h ▸ fmtXYN_fields w

theorem fields_zero_iff {w : Word} : (fields w).op.toNat = 0x0 ∧ (fields w).nnn = 0x000#12 ↔ w = 0x0000#16 := by
  constructor
  · rintro ⟨hop, hnnn⟩
    exact (fmtNNN_of_op (op := 0x0) hop).symm.trans (congrArg (fmtNNN 0x0) hnnn)
  · rintro rfl
    exact ⟨rfl, rfl⟩

/-- SYS has a word of its own where 0NNN is neither Unknown nor CLS nor RET (R76). -/
theorem wf_sys_iff {nnn : Addr} : (Instr.sys nnn).wf = true ↔ nnn ≠ 0x000#12 ∧ nnn ≠ 0x0E0#12 ∧ nnn ≠ 0x0EE#12 := by
  simp [Instr.wf, and_assoc]

/-! A group decodes to an instruction: it is well-formed, and its word holds every field the group has -/

theorem wf_encode_of_decode0 {f : Fields} {i : Instr} (h : decode0 f = some i) :
    i.wf = true ∧ encode i = fmtNNN 0x0 f.nnn := by
  unfold decode0 at h
  split at h
  · next hcls => cases h; rw [hcls]; exact ⟨rfl, rfl⟩
  split at h
  · next hret => cases h; rw [hret]; exact ⟨rfl, rfl⟩
  split at h
  · cases h
  · next hcls hret hzero => cases h; exact ⟨wf_sys_iff.mpr ⟨hzero, hcls, hret⟩, rfl⟩

theorem decodeXY0_eq_some_iff {f : Fields} {i j : Instr} : decodeXY0 f i = some j ↔ f.n = 0x0#4 ∧ i = j := by
  simp [decodeXY0]

theorem wf_encode_of_decode8 {f : Fields} {i : Instr} (h : decode8 f = some i) :
    i.wf = true ∧ encode i = fmtXYN 0x8 f.x f.y f.n := by
  unfold decode8 at h
  split at h <;> cases h
  all_goals
    next hn => exact ⟨rfl, congrArg (fmtXYN 0x8 f.x f.y) (BitVec.eq_of_toNat_eq hn.symm)⟩

theorem wf_encode_of_decodeE {f : Fields} {i : Instr} (h : decodeE f = some i) :
    i.wf = true ∧ encode i = fmtXNN 0xE f.x f.nn := by
  unfold decodeE at h
  split at h <;> cases h
  all_goals
    next hnn => exact ⟨rfl, congrArg (fmtXNN 0xE f.x) (BitVec.eq_of_toNat_eq hnn.symm)⟩

theorem wf_encode_of_decodeF {f : Fields} {i : Instr} (h : decodeF f = some i) :
    i.wf = true ∧ encode i = fmtXNN 0xF f.x f.nn := by
  unfold decodeF at h
  split at h <;> cases h
  all_goals
    next hnn => exact ⟨rfl, congrArg (fmtXNN 0xF f.x) (BitVec.eq_of_toNat_eq hnn.symm)⟩

/-! A group decodes to nothing -/

theorem decode0_eq_none_iff {f : Fields} : decode0 f = none ↔ f.nnn = 0x000#12 := by
  unfold decode0
  split
  · next h => simp [h]
  split
  · next h => simp [h]
  split <;> simp [*]

theorem decodeXY0_eq_none_iff {f : Fields} {i : Instr} : decodeXY0 f i = none ↔ f.n.toNat ≠ 0 := by
  simp [decodeXY0, BitVec.toNat_eq]

theorem decode8_eq_none_iff {f : Fields} : decode8 f = none ↔ f.n.toNat ∉ [0, 1, 2, 3, 4, 5, 6, 7, 0xE] := by
  unfold decode8
  split <;> simp_all

theorem decodeE_eq_none_iff {f : Fields} : decodeE f = none ↔ f.nn.toNat ∉ [0x9E, 0xA1] := by
  unfold decodeE
  split <;> simp_all

theorem decodeF_eq_none_iff {f : Fields} :
    decodeF f = none ↔ f.nn.toNat ∉ [0x07, 0x0A, 0x15, 0x18, 0x1E, 0x29, 0x33, 0x55, 0x65] := by
  unfold decodeF
  split <;> simp_all

/-- The groups with Unknown words are 0, 5, 8, 9, E and F; in every other group each word is an instruction. -/
theorem classify_eq_none_iff {f : Fields} :
    classify f = none ↔
      (f.op.toNat = 0x0 ∧ f.nnn = 0x000#12) ∨
      (f.op.toNat = 0x5 ∧ f.n.toNat ≠ 0) ∨
      (f.op.toNat = 0x8 ∧ f.n.toNat ∉ [0, 1, 2, 3, 4, 5, 6, 7, 0xE]) ∨
      (f.op.toNat = 0x9 ∧ f.n.toNat ≠ 0) ∨
      (f.op.toNat = 0xE ∧ f.nn.toNat ∉ [0x9E, 0xA1]) ∨
      (f.op.toNat = 0xF ∧ f.nn.toNat ∉ [0x07, 0x0A, 0x15, 0x18, 0x1E, 0x29, 0x33, 0x55, 0x65]) := by
  rw [← decode0_eq_none_iff, ← decode8_eq_none_iff, ← decodeE_eq_none_iff, ← decodeF_eq_none_iff]
  unfold classify
  split
  case h_17 =>
    have hlt : f.op.toNat < 16 := f.op.isLt
    simp only [imp_false] at *
    omega
  all_goals
    next hop => simp [hop, decodeXY0_eq_none_iff]

/-! The decoder and the encoder -/

/-- Every well-formed instruction is read back from its word: the fields of a format are its arguments, and the
function nibble or byte selects the row. -/
theorem decode_encode {i : Instr} (hwf : i.wf = true) : decode (encode i) = some i := by
  cases i
  case cls => rfl
  case ret => rfl
  case sys nnn =>
    obtain ⟨hzero, hcls, hret⟩ := wf_sys_iff.mp hwf
    simp [decode, encode, classify, decode0, hzero, hcls, hret]
  case seReg | sneReg => simp [decode, encode, classify, decodeXY0]
  case ldReg | orReg | andReg | xorReg | addReg | sub | shr | subn | shl => simp [decode, encode, classify, decode8]
  case skp | sknp => simp [decode, encode, classify, decodeE]
  case ldVxDt | ldVxK | ldDt | ldSt | addI | ldF | ldB | stI | ldVxI => simp [decode, encode, classify, decodeF]
  all_goals simp [decode, encode, classify]

/-- The leading nibble names the group, and with it the group's fields are the whole word. Case h_k is the group of
leading nibble k - 1; the groups of one format share an argument. -/
theorem wf_encode_of_decode {w : Word} {i : Instr} (h : decode w = some i) : i.wf = true ∧ encode i = w := by
  unfold decode classify at h
  split at h
  case h_1 hop => exact (wf_encode_of_decode0 h).imp_right (·.trans (fmtNNN_of_op hop))
  case h_2 hop | h_3 hop | h_11 hop | h_12 hop => cases h; exact ⟨rfl, fmtNNN_of_op hop⟩
  case h_4 hop | h_5 hop | h_7 hop | h_8 hop | h_13 hop => cases h; exact ⟨rfl, fmtXNN_of_op hop⟩
  case h_6 hop | h_10 hop =>
    obtain ⟨hn, rfl⟩ := decodeXY0_eq_some_iff.mp h
    exact ⟨rfl, (congrArg (fmtXYN _ _ _) hn.symm).trans (fmtXYN_of_op hop)⟩
  case h_9 hop => exact (wf_encode_of_decode8 h).imp_right (·.trans (fmtXYN_of_op hop))
  case h_14 hop => cases h; exact ⟨rfl, fmtXYN_of_op hop⟩
  case h_15 hop => exact (wf_encode_of_decodeE h).imp_right (·.trans (fmtXNN_of_op hop))
  case h_16 hop => exact (wf_encode_of_decodeF h).imp_right (·.trans (fmtXNN_of_op hop))
  case h_17 => cases h

/-! The statements -/

/-- Settles O2: each format's fields are the instruction's arguments, and they select its row. -/
theorem decodeOfEncodeIsTheInstruction : Obligations.DecodeOfEncodeIsTheInstruction :=
  fun _ hwf => decode_encode hwf

/-- Settles O3: what a group decodes to encodes to the group's fields, and those are the whole word. -/
theorem decodedWordIsItsEncoding : Obligations.DecodedWordIsItsEncoding :=
  fun _ _ h => wf_encode_of_decode h

/-- Settles O4: group by group, with the fields read off the word as numbers. -/
theorem unknownWordsAreExactlyThese : Obligations.UnknownWordsAreExactlyThese := by
  intro w
  rw [decode, classify_eq_none_iff, fields_zero_iff, fields_op_toNat, fields_n_toNat, fields_nn_toNat]

/-- Settles O1: the words are literals, and the decoder runs on each. -/
theorem specWordsDecode : Obligations.SpecWordsDecode := by
  unfold Obligations.SpecWordsDecode
  decide

end Sys2Proof
end

section
/-! Control transfer (40_control_flow.md R100 to R110): where SYS, RET, JP, CALL, JP.V0 and the compare-skips leave PC,
what CALL and RET do to the stack, and the three core faults of the fetch and of the stack. -/

namespace Sys2Proof.Machine

/-! The step of an Unknown word -/

/-- step() of a core that fetches an Unknown word raises UnknownOpcode at it (40_control_flow.md R100). -/
theorem instructionStep_of_unknown {s : State} (hrun : s.run = .run) (hdecode : decode s.fetchWord = none) :
    instructionStep s = .next (s.raiseFault .unknownOpcode s.fetchWord) := by
  simp only [instructionStep, hrun, fetchExecute, hdecode]

/-! PC and the call stack -/

/-- A 12-bit address is in range, so PC takes it as it is (10_state.md R24). -/
theorem State.finishAt_addr_pc_toNat (s : State) (a : Addr) : (s.finishAt a.toNat).pc.toNat = a.toNat :=
  (State.finishAt_pc_toNat s a.toNat).trans (Nat.mod_eq_of_lt a.isLt)

theorem State.returnAddress_toNat (s : State) : s.returnAddress.toNat = (s.pc.toNat + 2) % 4096 := by
  rw [State.returnAddress, BitVec.toNat_ofNat, Nat.mod_mod]

theorem State.stackFull_iff (s : State) : s.stackFull = true ↔ s.params.stackLimit = some s.stack.length :=
  beq_iff_eq

/-! RET and CALL, a lemma for each branch -/

theorem exec_ret_of_nil {s : State} (h : s.stack = []) :
    exec .ret s = .next (s.raiseFault .stackUnderflow (encode .ret)) := by
  simp only [exec, execRet, h]

theorem exec_ret_of_cons {s : State} {a : Addr} {rest : List Addr} (h : s.stack = a :: rest) :
    exec .ret s = .next ((s.setStack rest).finishAt a.toNat) := by
  simp only [exec, execRet, h]

theorem exec_call_of_full {s : State} (h : s.params.stackLimit = some s.stack.length) (nnn : Addr) :
    exec (.call nnn) s = .next (s.raiseFault .stackOverflow (encode (.call nnn))) :=
  if_pos (s.stackFull_iff.mpr h)

theorem exec_call_of_room {s : State} (h : s.params.stackLimit ≠ some s.stack.length) (nnn : Addr) :
    exec (.call nnn) s = .next ((s.push s.returnAddress).finishAt nnn.toNat) :=
  if_neg (mt s.stackFull_iff.mp h)

/-! The compare-skips -/

/-- In groups 5 and 9 a trailing nibble other than 0 is Unknown (30_encoding.md R75; 40_control_flow.md R108, R109). -/
theorem decode_fmtXYN_eq_none {op n : Nibble} (hop : op = 0x5 ∨ op = 0x9) (hn : n ≠ 0x0#4) (x y : RegIdx) :
    decode (fmtXYN op x y n) = none := by
  have hn' : n.toNat ≠ 0 := fun h => hn (BitVec.eq_of_toNat_eq h)
  rw [decode, classify_eq_none_iff, fields_fmtXYN_op, fields_fmtXYN_n]
  obtain rfl | rfl := hop
  · exact .inr (.inl ⟨rfl, hn'⟩)
  · exact .inr (.inr (.inr (.inl ⟨rfl, hn'⟩)))

theorem State.skipIf_pc_toNat (s : State) (c : Bool) :
    (s.skipIf c).pc.toNat = (s.pc.toNat + if c then 4 else 2) % 4096 :=
  State.finish_pc_toNat s _

/-! The statements -/

/-- Settles O6: the word of the two bytes at PC is the fetched word, and raising a fault is the whole change. -/
theorem unknownWordHaltsTheCore : Obligations.UnknownWordHaltsTheCore := by
  rintro s _ hinit hop hrun rfl hdecode
  exact (step_of_nextOp_step hinit hop).trans (instructionStep_of_unknown hrun hdecode)

/-- Settles O7: SYS is the end of an instruction and nothing before it. -/
theorem sysOnlyAdvancesPc : Obligations.SysOnlyAdvancesPc := by
  refine ⟨rfl, fun nnn s => ⟨fun hzero hcls hret => ?_, ?_⟩⟩
  · exact decode_encode (i := .sys nnn) (wf_sys_iff.mpr ⟨hzero, hcls, hret⟩)
  · exact ⟨_, rfl, State.finish_pc_toNat s 2, rfl, rfl, fun _ => rfl⟩

/-- Settles O8, by whether the stack has a top. -/
theorem retPopsThePc : Obligations.RetPopsThePc := by
  refine ⟨decode_encode (i := .ret) rfl, fun s a rest hstack => ?_, fun s hstack => exec_ret_of_nil hstack⟩
  exact ⟨_, exec_ret_of_cons hstack, State.finishAt_addr_pc_toNat _ a, rfl, rfl, rfl, fun _ => rfl⟩

/-- Settles O9: each jump is the end of an instruction at its target, which for JP is in range as it is. -/
theorem jumpsSetPc : Obligations.JumpsSetPc := by
  intro nnn s
  refine ⟨decode_encode (i := .jp nnn) rfl, decode_encode (i := .jpV0 nnn) rfl, ?_, ?_⟩
  · exact ⟨_, rfl, State.finishAt_addr_pc_toNat s nnn, rfl, rfl, fun _ => rfl⟩
  · exact ⟨_, rfl, State.finishAt_pc_toNat s _, rfl, rfl, fun _ => rfl⟩

/-- Settles O10: with room the pushed address is the top that RET pops, and on a full stack nothing is pushed. -/
theorem callPushesTheReturnAddress : Obligations.CallPushesTheReturnAddress := by
  intro nnn s
  refine ⟨decode_encode (i := .call nnn) rfl, fun hroom => ?_, fun hfull => exec_call_of_full hfull nnn⟩
  have hret := s.returnAddress_toNat
  refine ⟨_, s.returnAddress, exec_call_of_room hroom nnn, State.finishAt_addr_pc_toNat _ nnn, rfl, hret, rfl, rfl,
    fun _ => rfl, ?_⟩
  exact ⟨_, exec_ret_of_cons rfl, (State.finishAt_addr_pc_toNat _ _).trans hret, rfl⟩

/-- Settles O11: each comparison is its instruction's skip condition, and a skip instruction does nothing but skip on
it. -/
theorem skipsCompareAndAdvance : Obligations.SkipsCompareAndAdvance := by
  intro x y nn s
  refine ⟨decode_encode (i := .seImm x nn) rfl, decode_encode (i := .sneImm x nn) rfl,
    decode_encode (i := .seReg x y) rfl, decode_encode (i := .sneReg x y) rfl,
    fun n hn => ⟨decode_fmtXYN_eq_none (.inl rfl) hn x y, decode_fmtXYN_eq_none (.inr rfl) hn x y⟩,
    fun i skips hi => ?_⟩
  have hcond : ∃ c, skipCondition i s = some c ∧ (skips ↔ c = true) := by
    obtain ⟨rfl, h⟩ | ⟨rfl, h⟩ | ⟨rfl, h⟩ | ⟨rfl, h⟩ := hi
    all_goals exact ⟨_, rfl, h.trans decide_eq_true_iff.symm⟩
  obtain ⟨c, hc, hskips⟩ := hcond
  refine ⟨_, exec_of_skipCondition hc, fun h => ?_, fun h => ?_, rfl, rfl, fun _ => rfl⟩
  · rw [State.skipIf_pc_toNat, if_pos (hskips.mp h)]
  · rw [State.skipIf_pc_toNat, if_neg (mt hskips.mpr h)]

end Sys2Proof.Machine
end

section
/-! The register and ALU instructions (41_alu.md R120 to R134). Each but RND is one run of the ALU and the end of an
instruction, so what such an instruction does is said once, for the functions without a flag and for those with one;
a statement then says which function runs on which operand, and what the function computes. -/

namespace Sys2Proof.Machine

/-! An instruction that runs the ALU -/

/-- The registers of an instruction whose ALU function has no flag: V[x] alone is written (41_alu.md R123 to R128). -/
theorem exec_of_applyAlu_unflagged {i : Instr} {s : State} {f : AluFn} {x : RegIdx} {b : Byte}
    (h : exec i s = .next ((s.applyAlu f x b).finish 2)) (hf : aluFlag f (s.reg x) b = none) :
    ∃ t, exec i s = .next t ∧ t.reg x = aluResult f (s.reg x) b ∧ (∀ z, z ≠ x → t.reg z = s.reg z) ∧
      t.pc.toNat = (s.pc.toNat + 2) % 4096 ∧ t.stepResult = some .executed ∧
      t = { s with v := t.v, pc := t.pc, stepResult := t.stepResult } ∧ ∀ a, t.memRead a = s.memRead a := by
  obtain ⟨hframe, -, hresult, hother⟩ := s.applyAlu_spec f x b
  obtain ⟨hpc, hend, hmem⟩ := State.finish_after_v hframe 2
  exact ⟨_, h, hresult (.inl hf), fun z hz => hother z hz (.inl hf), hpc, rfl, hend, hmem⟩

/-- The registers of an instruction whose ALU function has a flag: V[x], and VF after it (41_alu.md R122). -/
theorem exec_of_applyAlu_flagged {i : Instr} {s : State} {f : AluFn} {x : RegIdx} {b : Byte} {c : Bool}
    (h : exec i s = .next ((s.applyAlu f x b).finish 2)) (hf : aluFlag f (s.reg x) b = some c) :
    ∃ t, exec i s = .next t ∧ (x ≠ vF → t.reg x = aluResult f (s.reg x) b) ∧ t.reg vF = flagByte c ∧
      (∀ z, z ≠ x → z ≠ vF → t.reg z = s.reg z) ∧
      t.pc.toNat = (s.pc.toNat + 2) % 4096 ∧ t.stepResult = some .executed ∧
      t = { s with v := t.v, pc := t.pc, stepResult := t.stepResult } ∧ ∀ a, t.memRead a = s.memRead a := by
  obtain ⟨hframe, hflag, hresult, hother⟩ := s.applyAlu_spec f x b
  obtain ⟨hpc, hend, hmem⟩ := State.finish_after_v hframe 2
  exact ⟨_, h, fun hx => hresult (.inr hx), hflag c hf, fun z hz hv => hother z hz (.inr hv), hpc, rfl, hend, hmem⟩

/-! What the functions compute, as numbers (41_alu.md R120, R121) -/

theorem narrow_toNat (n : Nat) : (narrow n).toNat = n % 256 := BitVec.toNat_ofNat n 8

/-- The wrapped difference of two bytes is the exact one mod 256. -/
theorem byte_sub_toNat (a b : Byte) : ((a - b).toNat : Int) = ((a.toNat : Int) - b.toNat) % 256 := by
  have hb : b.toNat < 256 := b.isLt
  rw [BitVec.toNat_sub]
  omega

theorem flagByte_toNat (c : Bool) : (flagByte c).toNat = c.toNat := by
  cases c <;> rfl

/-- A bit shifted out to VF is that bit's digit of the operand. -/
theorem flagByte_getLsbD_toNat (a : Byte) (k : Nat) : (flagByte (a.getLsbD k)).toNat = a.toNat / 2 ^ k % 2 := by
  rw [flagByte_toNat, BitVec.getLsbD, Nat.toNat_testBit]

/-! The statements -/

/-- Settles O12: the functions are PASS_B and ADD_NF, neither of which has a flag. -/
theorem loadsAndAddImmediateWriteOnlyVx : Obligations.LoadsAndAddImmediateWriteOnlyVx := by
  intro x y nn s
  refine ⟨decode_encode (i := .ldImm x nn) rfl, decode_encode (i := .addImm x nn) rfl,
    decode_encode (i := .ldReg x y) rfl, fun i r hi => ?_⟩
  have halu : ∃ f b, exec i s = .next ((s.applyAlu f x b).finish 2) ∧ aluFlag f (s.reg x) b = none ∧
      (aluResult f (s.reg x) b).toNat = r := by
    obtain ⟨rfl, rfl⟩ | ⟨rfl, rfl⟩ | ⟨rfl, rfl⟩ := hi
    · exact ⟨.passB, nn, rfl, rfl, rfl⟩
    · exact ⟨.addNF, nn, rfl, rfl, narrow_toNat _⟩
    · exact ⟨.passB, s.reg y, rfl, rfl, rfl⟩
  obtain ⟨f, b, hexec, hflag, hresult⟩ := halu
  obtain ⟨t, ht, hx, hrest⟩ := exec_of_applyAlu_unflagged hexec hflag
  exact ⟨t, ht, hx ▸ hresult, hrest⟩

/-- Settles O13: the functions are OR, AND and XOR, each of which acts on every bit alone and has no flag. -/
theorem logicWritesOnlyVx : Obligations.LogicWritesOnlyVx := by
  intro x y s
  refine ⟨decode_encode (i := .orReg x y) rfl, decode_encode (i := .andReg x y) rfl,
    decode_encode (i := .xorReg x y) rfl, fun i g hi => ?_⟩
  have halu : ∃ f, exec i s = .next ((s.applyAlu f x (s.reg y)).finish 2) ∧ aluFlag f (s.reg x) (s.reg y) = none ∧
      ∀ k, (aluResult f (s.reg x) (s.reg y)).getLsbD k = g ((s.reg x).getLsbD k) ((s.reg y).getLsbD k) := by
    obtain ⟨rfl, rfl⟩ | ⟨rfl, rfl⟩ | ⟨rfl, rfl⟩ := hi
    · exact ⟨.or, rfl, rfl, fun _ => BitVec.getLsbD_or⟩
    · exact ⟨.and, rfl, rfl, fun _ => BitVec.getLsbD_and⟩
    · exact ⟨.xor, rfl, rfl, fun _ => BitVec.getLsbD_xor⟩
  obtain ⟨f, hexec, hflag, hbits⟩ := halu
  obtain ⟨t, ht, hx, hrest⟩ := exec_of_applyAlu_unflagged hexec hflag
  exact ⟨t, ht, fun k _ => hx ▸ hbits k, hrest⟩

/-- Settles O14: the functions are ADD, SUB and SUBN, whose flag is the comparison of the operands before any write. -/
theorem addAndSubtractWriteVxThenVf : Obligations.AddAndSubtractWriteVxThenVf := by
  intro x y s
  refine ⟨decode_encode (i := .addReg x y) rfl, decode_encode (i := .sub x y) rfl, decode_encode (i := .subn x y) rfl,
    fun i r flag hi => ?_⟩
  have halu : ∃ f c, exec i s = .next ((s.applyAlu f x (s.reg y)).finish 2) ∧
      aluFlag f (s.reg x) (s.reg y) = some c ∧ (flag ↔ c = true) ∧
      ((aluResult f (s.reg x) (s.reg y)).toNat : Int) = r % 256 := by
    obtain ⟨rfl, rfl, hflag⟩ | ⟨rfl, rfl, hflag⟩ | ⟨rfl, rfl, hflag⟩ := hi
    · exact ⟨.add, _, rfl, rfl, hflag.trans decide_eq_true_iff.symm, congrArg Nat.cast (narrow_toNat _)⟩
    · exact ⟨.sub, _, rfl, rfl, hflag.trans decide_eq_true_iff.symm, byte_sub_toNat _ _⟩
    · exact ⟨.subn, _, rfl, rfl, hflag.trans decide_eq_true_iff.symm, byte_sub_toNat _ _⟩
  obtain ⟨f, c, hexec, hf, hflag, hresult⟩ := halu
  obtain ⟨t, ht, hx, hv, hrest⟩ := exec_of_applyAlu_flagged hexec hf
  refine ⟨t, ht, fun hne => hx hne ▸ hresult, fun h => ?_, fun h => ?_, hrest⟩
  · rw [hv, hflag.mp h, flagByte_true]
  · rw [hv, Bool.eq_false_iff.mpr (mt hflag.mpr h), flagByte_false]

/-- Settles O15: the functions are SHR and SHL, run with a constant for the operand V[Y], and the flag is bit 0 or
bit 7. -/
theorem shiftsWriteVxThenVf : Obligations.ShiftsWriteVxThenVf := by
  intro x y s
  refine ⟨decode_encode (i := .shr x y) rfl, decode_encode (i := .shl x y) rfl, fun i r out hi => ?_⟩
  have halu : ∃ f c, exec i s = .next ((s.applyAlu f x 0#8).finish 2) ∧ aluFlag f (s.reg x) 0#8 = some c ∧
      (flagByte c).toNat = out ∧ (aluResult f (s.reg x) 0#8).toNat = r := by
    obtain ⟨rfl, rfl, rfl⟩ | ⟨rfl, rfl, rfl⟩ := hi
    · refine ⟨.shr, _, rfl, rfl, ?_, BitVec.toNat_ushiftRight _ _⟩
      rw [flagByte_getLsbD_toNat, pow_zero, Nat.div_one]
    · have hlt : (s.reg x).toNat < 256 := (s.reg x).isLt
      refine ⟨.shl, _, rfl, rfl, ?_, narrow_toNat _⟩
      rw [flagByte_getLsbD_toNat]
      omega
  obtain ⟨f, c, hexec, hf, hout, hresult⟩ := halu
  obtain ⟨t, ht, hx, hv, hrest⟩ := exec_of_applyAlu_flagged hexec hf
  exact ⟨t, ht, fun hne => hx hne ▸ hresult, hv ▸ hout, hrest⟩

/-- Settles O16: V[x] is the conjunction with the free byte whatever that byte is, so NN bounds its bits. -/
theorem rndMasksOneFreeByte : Obligations.RndMasksOneFreeByte := by
  intro x nn s
  have hx := s.drawn.reg_setReg_same x (nn &&& Config.rand8 s.draws)
  refine ⟨decode_encode (i := .rnd x nn) rfl, _, rfl, hx, rfl, fun hzero => ?_, fun k hk => ?_,
    fun z hz => State.reg_setReg_other _ _ hz, State.finish_pc_toNat _ 2, rfl, rfl, fun _ => rfl⟩
  · rw [State.finish_reg, hx, hzero, BitVec.zero_and]
  · rw [State.finish_reg, hx, BitVec.getLsbD_and, hk, Bool.false_and]

end Sys2Proof.Machine
end

section
/-! The index register and memory instructions (42_index_memory.md R150 to R155). LD.B and ST.I are one run of stores
from I on and the end of an instruction, so what such an instruction does is said once; a statement then says which
bytes are stored. -/

namespace Sys2Proof.Machine

/-! The values of I, as numbers -/

theorem zextAddr_toNat (nnn : Addr) : (zextAddr nnn).toNat = nnn.toNat :=
  BitVec.toNat_setWidth_of_le (by decide)

theorem indexPlus_toNat (i : Word) (b : Byte) : (indexPlus i b).toNat = (i.toNat + b.toNat) % 65536 :=
  BitVec.toNat_ofNat _ 16

/-- The address of the last glyph is 255 * 5, so the product is exact. -/
theorem glyphAddress_toNat (b : Byte) : (glyphAddress b).toNat = b.toNat * 5 := by
  have hb : b.toNat < 256 := b.isLt
  exact (BitVec.toNat_ofNat _ 16).trans (Nat.mod_eq_of_lt (by omega))

/-! The bytes that are stored -/

@[simp] theorem length_decimalDigits (b : Byte) : (decimalDigits b).length = 3 := rfl

/-- A decimal digit fits in a byte. -/
theorem digit_toNat {d : Nat} (h : d < 10) : (BitVec.ofNat 8 d).toNat = d :=
  (BitVec.toNat_ofNat d 8).trans (Nat.mod_eq_of_lt (by omega))

@[simp] theorem State.regAt_toNat (s : State) (z : RegIdx) : s.regAt z.toNat = s.reg z := by
  rw [State.regAt, BitVec.ofNat_toNat, BitVec.setWidth_eq]

/-! An instruction that stores from I on -/

/-- The memory of an instruction that stores bytes from I on: each byte is in its own cell, and the rest reads as before
(20_memory.md R51). -/
theorem exec_of_memWrites {i : Instr} {s : State} {bytes : List Byte}
    (h : exec i s = .next ((s.memWrites s.i.toNat bytes).finish 2)) (hl : bytes.length ≤ 4096) :
    ∃ t, exec i s = .next t ∧ (∀ k (hk : k < bytes.length), t.memRead (s.i.toNat + k) = bytes[k]) ∧
      (∀ a, (∀ k, k < bytes.length → cellOf a ≠ cellOf (s.i.toNat + k)) → t.memRead a = s.memRead a) ∧
      t.pc.toNat = (s.pc.toNat + 2) % 4096 ∧ t.stepResult = some .executed ∧
      t = { s with mem := t.mem, pc := t.pc, stepResult := t.stepResult } := by
  obtain ⟨hpc, hend⟩ := State.finish_after_mem (s.memWrites_frame s.i.toNat bytes) 2
  exact ⟨_, h, s.memRead_memWrites _ bytes hl, s.memRead_memWrites_other _ bytes, hpc, rfl, hend⟩

/-! The statements -/

/-- Settles O17: each instruction writes one value to I, and is the end of an instruction after that. -/
theorem indexInstructionsWriteOnlyI : Obligations.IndexInstructionsWriteOnlyI := by
  intro x nnn s
  refine ⟨decode_encode (i := .ldI nnn) rfl, decode_encode (i := .addI x) rfl, decode_encode (i := .ldF x) rfl,
    fun i r hi => ?_⟩
  have hindex : ∃ a, exec i s = .next ((s.setI a).finish 2) ∧ a.toNat = r := by
    obtain ⟨rfl, rfl⟩ | ⟨rfl, rfl⟩ | ⟨rfl, rfl⟩ := hi
    · exact ⟨_, rfl, zextAddr_toNat nnn⟩
    · exact ⟨_, rfl, indexPlus_toNat s.i (s.reg x)⟩
    · exact ⟨_, rfl, glyphAddress_toNat (s.reg x)⟩
  obtain ⟨a, hexec, ha⟩ := hindex
  exact ⟨_, hexec, ha, State.finish_pc_toNat _ 2, rfl, rfl, fun _ => rfl⟩

/-- Settles O18: the stored bytes are the three digits, each less than 10. -/
theorem bcdWritesThreeDigits : Obligations.BcdWritesThreeDigits := by
  intro x s
  obtain ⟨t, hexec, hdigit, hother, hend⟩ := exec_of_memWrites (i := .ldB x) (s := s) rfl (by simp)
  have hlt : (s.reg x).toNat < 256 := (s.reg x).isLt
  refine ⟨decode_encode (i := .ldB x) rfl, t, hexec, ?_, ?_, ?_, hother, hend⟩
  · exact (congrArg BitVec.toNat (hdigit 0 (by simp))).trans (digit_toNat (by omega))
  · exact (congrArg BitVec.toNat (hdigit 1 (by simp))).trans (digit_toNat (by omega))
  · exact (congrArg BitVec.toNat (hdigit 2 (by simp))).trans (digit_toNat (by omega))

/-- Settles O19: the stored bytes are the register block, which has X + 1 of them. -/
theorem storeBlockWritesRegisters : Obligations.StoreBlockWritesRegisters := by
  intro x s
  have hlength := s.length_regBlock x
  have hx : x.toNat < 16 := x.isLt
  obtain ⟨t, hexec, hbyte, hother, hend⟩ := exec_of_memWrites (i := .stI x) (s := s) rfl (by omega)
  refine ⟨decode_encode (i := .stI x) rfl, t, hexec, fun z hz => ?_, fun a ha => ?_, hend⟩
  · rw [hbyte z.toNat (by omega), State.getElem_regBlock, State.regAt_toNat]
  · exact hother a fun k hk => ha k (by omega)

/-- Settles O20: loads read the memory and I of the start, so register k is the byte at I + k whatever was loaded before
it. -/
theorem loadBlockReadsRegisters : Obligations.LoadBlockReadsRegisters := by
  intro x s
  have hreg : ∀ z, (s.loadBlock x).reg z =
      if z.toNat < x.toNat + 1 then s.memRead (s.i.toNat + z.toNat) else s.reg z :=
    s.reg_loads (x.toNat + 1) x.isLt
  obtain ⟨hpc, hend, hmem⟩ := State.finish_after_v (s.loadBlock_frame x) 2
  refine ⟨decode_encode (i := .ldVxI x) rfl, _, rfl, fun z hz => ?_, fun z hz => ?_, hpc, rfl, hend, hmem⟩
  · rw [State.finish_reg, hreg, if_pos (by omega)]
  · rw [State.finish_reg, hreg, if_neg (by omega)]

end Sys2Proof.Machine
end

section
/-! The display (43_display.md R170 to R174). A drawing is one toggle after another of the sprite's cells, in the order
of spriteCells; so the parity of its toggles decides each pixel, and the flag tells of a
toggle that found its pixel set. -/

namespace Sys2Proof.Machine

/-! A sprite as the list of its cells -/

/-- The cells of a list toggled one by one, with the collision so far (R171). -/
def toggleCells (p : Params) (acc : Framebuffer × Bool) (cells : List (Nat × Nat)) : Framebuffer × Bool :=
  cells.foldl (fun acc d => togglePixel p acc d.1 d.2) acc

/-- The cells of one sprite row's set bits, from the most significant (R171). -/
def rowCells (p : Params) (cx cy : Nat) (byteOf : Nat → Byte) (row : Nat) : List (Nat × Nat) :=
  (List.range 8).filterMap fun bit =>
    if spriteBit (byteOf row) bit then some (targetColumn p cx bit, targetRow p cy row) else none

theorem targetRow_eq (p : Params) (cy row : Nat) :
    targetRow p cy row = if p.rowWrap = .wrap then (cy + row) % p.displayH else cy + row := by
  unfold targetRow
  cases p.rowWrap <;> rfl

theorem State.spriteCells_eq (s : State) (cx cy n : Nat) :
    s.spriteCells cx cy n = (List.range n).flatMap (rowCells s.params cx cy s.spriteByte) := by
  unfold rowCells
  simp only [targetRow_eq]
  rfl

theorem drawRow_eq_toggleCells (p : Params) (cx cy : Nat) (byteOf : Nat → Byte) (acc : Framebuffer × Bool)
    (row : Nat) : drawRow p cx cy byteOf acc row = toggleCells p acc (rowCells p cx cy byteOf row) := by
  rw [toggleCells, rowCells, List.foldl_filterMap, drawRow]
  congr 1
  funext acc bit
  cases spriteBit (byteOf row) bit <;> rfl

/-- DXYN toggles the cells of spriteCells, in that order. -/
theorem State.drawSprite_eq_toggleCells (s : State) (cx cy n : Nat) :
    s.drawSprite cx cy n = toggleCells s.params (s.fb, false) (s.spriteCells cx cy n) := by
  rw [State.spriteCells_eq, toggleCells, List.foldl_flatMap, State.drawSprite]
  congr 1
  funext acc row
  exact drawRow_eq_toggleCells _ _ _ _ _ _

theorem toggleCells_concat (p : Params) (acc : Framebuffer × Bool) (cells : List (Nat × Nat)) (d : Nat × Nat) :
    toggleCells p acc (cells ++ [d]) = togglePixel p (toggleCells p acc cells) d.1 d.2 :=
  List.foldl_concat ..

/-! Where the cells are -/

/-- Every cell is the target of a set bit in some row. -/
theorem State.exists_bit_of_mem_spriteCells {s : State} {cx cy n : Nat} {d : Nat × Nat}
    (h : d ∈ s.spriteCells cx cy n) :
    ∃ row bit, row < n ∧ spriteBit (s.spriteByte row) bit = true ∧
      d = (targetColumn s.params cx bit, targetRow s.params cy row) := by
  rw [State.spriteCells_eq, List.mem_flatMap] at h
  obtain ⟨row, hrow, hd⟩ := h
  obtain ⟨bit, -, hbit⟩ := List.mem_filterMap.mp hd
  obtain ⟨hset, hcell⟩ := Option.ite_none_right_eq_some.mp hbit
  exact ⟨row, bit, List.mem_range.mp hrow, hset, (Option.some.inj hcell).symm⟩

/-- Where R172's fault does not apply, every cell is inside the geometry. -/
theorem State.spriteCells_inside {s : State} {cx cy n : Nat} (hwf : s.params.wf) (hin : ¬s.drawsPastLastRow cy n) :
    ∀ d ∈ s.spriteCells cx cy n, d.1 < s.params.displayW ∧ d.2 < s.params.displayH := by
  intro d hd
  obtain ⟨-, hW, hH, -⟩ := hwf
  obtain ⟨row, bit, hrow, hset, rfl⟩ := State.exists_bit_of_mem_spriteCells hd
  refine ⟨Nat.mod_lt _ hW, ?_⟩
  change targetRow s.params cy row < _
  unfold targetRow
  split
  · exact Nat.mod_lt _ hH
  · next hlineage =>
    have hbyte : s.spriteByte row ≠ 0#8 := fun e => by simp [spriteBit, e] at hset
    exact Nat.lt_of_not_le fun hle => hin ⟨hlineage, row, hrow, hbyte, hle⟩

/-! What the toggles of a list do, one cell more at a time -/

theorem State.pixAfter_concat (s : State) (cells : List (Nat × Nat)) (d : Nat × Nat) (c r : Nat) :
    s.pixAfter (cells ++ [d]) c r = (s.pixAfter cells c r ^^ decide ((c, r) = d)) := by
  by_cases h : (c, r) = d
  · subst h
    have hparity : decide ((cells.count (c, r) + 1) % 2 = 1) = !decide (cells.count (c, r) % 2 = 1) := by
      rw [← decide_not, decide_eq_decide]
      omega
    simp [State.pixAfter, hparity]
  · simp [State.pixAfter, h, Ne.symm h]

theorem State.someTurnedOff_concat (s : State) (cells : List (Nat × Nat)) (d : Nat × Nat) :
    s.someTurnedOff (cells ++ [d]) ↔ s.someTurnedOff cells ∨ s.pixAfter cells d.1 d.2 = true := by
  constructor
  · rintro ⟨k, hk, h⟩
    rw [List.length_append, List.length_singleton] at hk
    obtain hlt | rfl := Nat.lt_succ_iff_lt_or_eq.mp hk
    · rw [List.take_append_of_le_length hlt.le, List.getElem_append_left hlt] at h
      exact .inl ⟨k, hlt, h⟩
    · simp only [List.take_left, List.getElem_concat_length] at h
      exact .inr h
  · rintro (⟨k, hk, h⟩ | h)
    · refine ⟨k, by rw [List.length_append]; omega, ?_⟩
      rwa [List.take_append_of_le_length hk.le, List.getElem_append_left hk]
    · refine ⟨cells.length, by simp, ?_⟩
      simpa only [List.take_left, List.getElem_concat_length] using h

/-- All that toggling cells inside the geometry does: each pixel changes with the parity of its toggles, and the flag is
raised by a toggle that finds its pixel set (R171). -/
theorem State.toggleCells_spec {s : State} (hl : s.fb.length = s.params.displayW * s.params.displayH)
    {cells : List (Nat × Nat)} (hin : ∀ d ∈ cells, d.1 < s.params.displayW ∧ d.2 < s.params.displayH) :
    (toggleCells s.params (s.fb, false) cells).1.length = s.params.displayW * s.params.displayH ∧
    (∀ c r, c < s.params.displayW →
      Framebuffer.get s.params (toggleCells s.params (s.fb, false) cells).1 c r = s.pixAfter cells c r) ∧
    ((toggleCells s.params (s.fb, false) cells).2 = true ↔ s.someTurnedOff cells) := by
  induction cells using List.reverseRecOn with
  | nil => exact ⟨hl, by simp [toggleCells, State.pixAfter, State.pix], by simp [toggleCells, State.someTurnedOff]⟩
  | append_singleton cells d ih =>
    obtain ⟨hlen, hpix, hflag⟩ := ih fun e he => hin e (List.mem_append_left _ he)
    obtain ⟨hc, hr⟩ := hin d (by simp)
    rw [toggleCells_concat]
    refine ⟨(Framebuffer.length_put ..).trans hlen, fun c r hc' => ?_, ?_⟩
    · rw [togglePixel, Framebuffer.get_put _ _ hlen _ hc hr hc', State.pixAfter_concat, ← hpix c r hc']
      by_cases h : (c, r) = d
      · subst h
        simp
      · rw [if_neg fun e => h (Prod.ext e.1 e.2)]
        simp [h]
    · rw [State.someTurnedOff_concat, ← hflag, ← hpix _ _ hc, togglePixel, Bool.or_eq_true]

/-- Where no cell occurs twice, each toggle finds its pixel as it was at the start. -/
theorem State.someTurnedOff_iff_of_nodup (s : State) {cells : List (Nat × Nat)} (h : cells.Nodup) :
    s.someTurnedOff cells ↔ ∃ d ∈ cells, s.pix d.1 d.2 = true := by
  have hfirst : ∀ k (hk : k < cells.length),
      s.pixAfter (cells.take k) cells[k].1 cells[k].2 = s.pix cells[k].1 cells[k].2 := by
    intro k hk
    have hnew : cells[k] ∉ cells.take k := by
      rw [List.mem_take_iff_getElem]
      rintro ⟨j, hj, e⟩
      have := (h.getElem_inj_iff).mp e
      omega
    simp [State.pixAfter, List.count_eq_zero_of_not_mem hnew]
  constructor
  · rintro ⟨k, hk, hset⟩
    exact ⟨cells[k], List.getElem_mem hk, hfirst k hk ▸ hset⟩
  · rintro ⟨d, hd, hset⟩
    obtain ⟨k, hk, rfl⟩ := List.getElem_of_mem hd
    exact ⟨k, hk, (hfirst k hk).trans hset⟩

/-- Two rounds of the same toggles cancel, so a pixel is as at the start (R173). -/
theorem State.pixAfter_of_pixAfter {s t : State} {cells : List (Nat × Nat)} {c r : Nat}
    (h : t.pix c r = s.pixAfter cells c r) : t.pixAfter cells c r = s.pix c r := by
  rw [State.pixAfter, h, State.pixAfter, Bool.xor_assoc, Bool.xor_self, Bool.xor_false]

/-! DRW, a lemma for each branch -/

theorem exec_drw_of_past {x y : RegIdx} {n : Nibble} {s : State} (h : s.drawsPastLastRow (s.reg y).toNat n.toNat) :
    exec (.drw x y n) s = .next (s.raiseFault .drawRowOutOfRange (encode (.drw x y n))) :=
  if_pos ((s.rowOutOfRange_iff _ _).mpr h)

theorem exec_drw_of_inside {x y : RegIdx} {n : Nibble} {s : State} {drawing : Framebuffer × Bool}
    (h : ¬s.drawsPastLastRow (s.reg y).toNat n.toNat)
    (hdraw : s.drawSprite (s.reg x).toNat (s.reg y).toNat n.toNat = drawing) :
    exec (.drw x y n) s = .next (((s.present drawing.1).setFlag drawing.2).finish 2) := by
  rw [exec, execDrw, if_neg (mt (s.rowOutOfRange_iff _ _).mp h), hdraw]

/-! What the sprite depends on -/

theorem State.spriteByte_congr {s t : State} (hi : t.i = s.i) (hmem : ∀ a, t.memRead a = s.memRead a) :
    t.spriteByte = s.spriteByte :=
  funext fun row => by rw [State.spriteByte, State.spriteByte, hi, hmem]

theorem State.drawsPastLastRow_congr {s t : State} (hp : t.params = s.params) (hb : t.spriteByte = s.spriteByte)
    (cy n : Nat) : t.drawsPastLastRow cy n ↔ s.drawsPastLastRow cy n := by
  rw [State.drawsPastLastRow, State.drawsPastLastRow, hp, hb]

theorem State.spriteCells_congr {s t : State} (hp : t.params = s.params) (hb : t.spriteByte = s.spriteByte)
    (cx cy n : Nat) : t.spriteCells cx cy n = s.spriteCells cx cy n := by
  rw [State.spriteCells_eq, State.spriteCells_eq, hp, hb]

/-! The statements -/

/-- Settles O23: a framebuffer of false pixels reads false everywhere, also outside the geometry. -/
theorem clsClearsTheFramebuffer : Obligations.ClsClearsTheFramebuffer := by
  have hclear (p : Params) (c r : Nat) : Framebuffer.get p (clearFb p) c r = false :=
    List.getElem?_getD_replicate_default_eq ..
  exact ⟨decode_encode (i := .cls) rfl, fun s => ⟨_, rfl, hclear s.params, List.length_replicate, rfl,
    State.finish_pc_toNat _ 2, rfl, rfl, fun _ => rfl⟩⟩

/-- Settles O24: the drawing is the toggles of the sprite's cells, which are all inside the geometry. -/
theorem drwTogglesTheSprite : Obligations.DrwTogglesTheSprite := by
  rintro x y n s cells hwf ⟨-, -, hl, -⟩ hin rfl
  obtain ⟨hlen, hpix, hflag⟩ := State.toggleCells_spec hl (State.spriteCells_inside (cx := (s.reg x).toNat) hwf hin)
  have hdraw := s.drawSprite_eq_toggleCells (s.reg x).toNat (s.reg y).toNat n.toNat
  generalize toggleCells s.params (s.fb, false) _ = drawing at hlen hpix hflag hdraw
  have hvf := (s.present drawing.1).reg_setReg_same vF (flagByte drawing.2)
  refine ⟨decode_encode (i := .drw x y n) rfl, _, exec_drw_of_inside hin hdraw, fun c r hc _ => hpix c r hc,
    hlen.trans hl.symm, fun h => hvf.trans (congrArg flagByte (hflag.mpr h)),
    fun h => hvf.trans (congrArg flagByte (Bool.eq_false_iff.mpr (mt hflag.mp h))),
    fun z hz => State.reg_setReg_other _ _ hz, rfl, State.finish_pc_toNat _ 2, rfl, rfl, fun _ => rfl⟩

/-- Settles O25: the two branches of DRW, by R172's condition. -/
theorem drwFaultsPastTheLastRow : Obligations.DrwFaultsPastTheLastRow := by
  refine fun x y n s t h => ⟨fun hpast => ?_, fun hin => ?_⟩
  · rw [exec_drw_of_past hpast] at h
    cases h
    rfl
  · rw [exec_drw_of_inside hin rfl] at h
    cases h
    rfl

/-- Settles O26: with X and Y not 0xF the second draw has the sprite and the place of the first, so its toggles are the
same and cancel the first ones. -/
theorem secondDrawRestoresThePixels : Obligations.SecondDrawRestoresThePixels := by
  rintro x y n s t cells hx hy hwf hs hin ht hcells
  obtain ⟨-, t', ht', hpix, htlen, -, -, hreg, -, -, -, hframe, hmem⟩ :=
    drwTogglesTheSprite x y n s cells hwf hs hin hcells
  obtain rfl : t = t' := by simpa [ht] using ht'
  have hp : t.params = s.params := by rw [hframe]
  have hb : t.spriteByte = s.spriteByte := State.spriteByte_congr (by rw [hframe]) hmem
  have htin : ¬t.drawsPastLastRow (t.reg y).toNat n.toNat := by rwa [hreg y hy, State.drawsPastLastRow_congr hp hb]
  have htcells : cells = t.spriteCells (t.reg x).toNat (t.reg y).toNat n.toNat := by
    rw [hreg x hx, hreg y hy, State.spriteCells_congr hp hb, hcells]
  obtain ⟨-, u, hu, hupix, hulen, hon, hoff, -, -, -, -, huframe, -⟩ :=
    drwTogglesTheSprite x y n t cells (hp ▸ hwf) (exec_coherent ht hs) htin htcells
  have hup : u.params = s.params := by rw [huframe, hp]
  refine ⟨u, hu, ?_, fun hnodup => ?_⟩
  · obtain ⟨-, -, hl, -⟩ := hs
    refine Framebuffer.ext_pix s.params _ _ ((hulen.trans htlen).trans hl) hl fun c r hcw hrh => ?_
    have hback := hupix c r (hp ▸ hcw) (hp ▸ hrh)
    rwa [State.pixAfter_of_pixAfter (hpix c r hcw hrh), State.pix, hup] at hback
  · rw [← t.someTurnedOff_iff_of_nodup hnodup]
    refine ⟨fun h1 => ?_, hon⟩
    by_contra hnone
    exact absurd (h1.symm.trans (hoff hnone)) (by decide)

end Sys2Proof.Machine
end

section
/-! Keys and timers (44_keys_timers.md R190 to R198). The first step of FX0A and each poll of its wait take a key from a
list in ascending order or find the list empty; what taking a key does is said once, and a statement then says which
keys the list holds. -/

namespace Sys2Proof.Machine

/-! The key that SKP and SKNP test -/

/-- The key index is V[x] mod 16 (R190). -/
theorem keyIndex_eq_iff {b : Byte} {k : KeyIdx} : keyIndex b = k ↔ k.toNat = b.toNat % 16 := by
  rw [eq_comm, ← BitVec.toNat_inj, keyIndex, BitVec.toNat_setWidth]

/-! Taking a key -/

/-- The first key of an ascending list is its lowest. -/
theorem head_le_of_sorted {k : KeyIdx} {rest : List KeyIdx} (h : (k :: rest).Pairwise (fun a b => a.toNat < b.toNat)) :
    ∀ j ∈ k :: rest, k.toNat ≤ j.toNat := by
  intro j hj
  obtain rfl | hrest := List.mem_cons.mp hj
  · exact Nat.le_refl _
  · exact (List.rel_of_pairwise_cons h hrest).le

/-- Where the keys are in ascending order, V[x] receives one of them, the lowest one with FX0A_KEY_CHOICE = lowest, and
the instruction ends (R196). -/
theorem State.takeKey_of_sorted {s : State} {keys : List KeyIdx} {k : KeyIdx} {rest : List KeyIdx}
    (hkeys : keys = k :: rest) (hsorted : keys.Pairwise (fun a b => a.toNat < b.toNat)) (x : RegIdx) :
    ∃ t j, s.takeKey x k rest = t ∧ j ∈ keys ∧ (t.reg x).toNat = j.toNat ∧
      (s.params.fx0aKeyChoice = .lowest → ∀ l ∈ keys, j.toNat ≤ l.toNat) ∧ (∀ z, z ≠ x → t.reg z = s.reg z) ∧
      t.pc.toNat = (s.pc.toNat + 2) % 4096 ∧ t.stepResult = some .executed ∧
      t = { s with v := t.v, pc := t.pc, draws := t.draws, stepResult := t.stepResult } := by
  subst hkeys
  obtain ⟨j, hj, hlowest, htake⟩ := s.takeKey_spec x k rest
  refine ⟨_, j, htake, hj, ?_, fun h => ?_, fun z hz => State.reg_setReg_other s _ hz, State.finish_pc_toNat _ 2, rfl,
    rfl⟩
  · calc ((s.setReg x (j.setWidth 8)).reg x).toNat = (j.setWidth 8).toNat := by rw [State.reg_setReg_same]
      _ = j.toNat := BitVec.toNat_setWidth_of_le (by decide)
  · rw [hlowest h]
    exact head_le_of_sorted hsorted

/-! The first step of FX0A and the poll, a lemma for each branch -/

/-- The keys that end FX0A at once, as a condition on one key (R194). -/
theorem State.mem_firstKeys (s : State) (k : KeyIdx) :
    k ∈ s.firstKeys ↔ s.params.fx0aTrigger = .level ∧ s.keys.down k = true := by
  unfold State.firstKeys
  cases s.params.fx0aTrigger <;> simp [Keys.pressed]

theorem State.firstKeys_sorted (s : State) : s.firstKeys.Pairwise (fun a b => a.toNat < b.toNat) := by
  unfold State.firstKeys
  split
  · exact .nil
  · exact allKeys_sorted.filter (fun k => s.keys.down k)

theorem exec_ldVxK_of_nil {s : State} (h : s.firstKeys = []) (x : RegIdx) :
    exec (.ldVxK x) s = .next (s.waitForKey x) := by
  simp only [exec, execLdVxK, h]

theorem exec_ldVxK_of_cons {s : State} {k : KeyIdx} {rest : List KeyIdx} (h : s.firstKeys = k :: rest) (x : RegIdx) :
    exec (.ldVxK x) s = .next (s.takeKey x k rest) := by
  simp only [exec, execLdVxK, h]

theorem State.pollKeys_of_nil {s : State} {prev : Keys} (h : Keys.qualifying s.params.fx0aTrigger prev s.keys = [])
    (x : RegIdx) : s.pollKeys x prev = s.waitForKey x := by
  simp only [State.pollKeys, h]

theorem State.pollKeys_of_cons {s : State} {prev : Keys} {k : KeyIdx} {rest : List KeyIdx}
    (h : Keys.qualifying s.params.fx0aTrigger prev s.keys = k :: rest) (x : RegIdx) :
    s.pollKeys x prev = { s.takeKey x k rest with run := .run } := by
  simp only [State.pollKeys, h]

/-- step() of a waiting core is one poll (R195). -/
theorem step_of_waitKey {s : State} {x : RegIdx} {prev : Keys} (hinit : s.initialised = true) (hop : s.nextOp = .step)
    (hrun : s.run = .waitKey x prev) : step s = .next (s.taken.pollKeys x prev) := by
  rw [step_of_nextOp_step hinit hop]
  simp only [instructionStep, hrun]

/-! The statements -/

/-- Settles O30: FX0A waits when no key ends it at once, and else takes one of the keys that do. -/
theorem waitForKeyFirstStep : Obligations.WaitForKeyFirstStep := by
  intro x s
  refine ⟨decode_encode (i := .ldVxK x) rfl, fun hwait => ?_, fun hlevel ⟨p, hp⟩ => ?_⟩
  · refine exec_ldVxK_of_nil (List.eq_nil_iff_forall_not_mem.mpr fun k hk => ?_) x
    obtain ⟨hlevel, hdown⟩ := (s.mem_firstKeys k).mp hk
    obtain hedge | hnone := hwait
    · cases hlevel.symm.trans hedge
    · exact Bool.eq_false_iff.mp (hnone k) hdown
  · have hmem : ∀ k, k ∈ s.firstKeys ↔ s.keys.down k = true := fun k => (s.mem_firstKeys k).trans (and_iff_right hlevel)
    obtain ⟨k, rest, hkeys⟩ := List.exists_cons_of_ne_nil (List.ne_nil_of_mem ((hmem p).mpr hp))
    obtain ⟨t, j, htake, hj, hx, hlowest, hother, hpc, hresult, hframe⟩ :=
      State.takeKey_of_sorted (s := s) hkeys s.firstKeys_sorted x
    refine ⟨t, j, htake ▸ exec_ldVxK_of_cons hkeys x, (hmem j).mp hj, hx,
      fun h l hl => hlowest h l ((hmem l).mpr hl), hother, hpc, hresult, hframe, ?_⟩
    exact State.memRead_congr (by rw [hframe]) (by rw [hframe])

/-- Settles O31: the poll waits on when its list of qualifying keys is empty, and else takes a key from it. -/
theorem waitForKeyPoll : Obligations.WaitForKeyPoll := by
  intro x prev s qualifies hinit hop hrun hqualifies
  have hmem : ∀ k, k ∈ Keys.qualifying s.params.fx0aTrigger prev s.keys ↔ qualifies k := fun k =>
    (mem_qualifying _ _ _ k).trans (hqualifies k).symm
  have hstep : step s = .next (s.taken.pollKeys x prev) := step_of_waitKey hinit hop hrun
  refine ⟨fun hnone => ?_, fun ⟨p, hp⟩ => ?_⟩
  · have hnil : Keys.qualifying s.params.fx0aTrigger prev s.keys = [] :=
      List.eq_nil_iff_forall_not_mem.mpr fun k hk => hnone k ((hmem k).mp hk)
    rw [hstep, State.pollKeys_of_nil (s := s.taken) hnil]
    rfl
  · obtain ⟨k, rest, hkeys⟩ := List.exists_cons_of_ne_nil (List.ne_nil_of_mem ((hmem p).mpr hp))
    obtain ⟨t, j, htake, hj, hx, hlowest, hother, hpc, hresult, hframe⟩ :=
      State.takeKey_of_sorted (s := s.taken) hkeys (qualifying_sorted _ _ _) x
    refine ⟨{ t with run := .run }, j, ?_, (hmem j).mp hj, hx, fun h l hl => hlowest h l ((hmem l).mpr hl), hother, hpc,
      rfl, hresult, congrArg (fun u : State => { u with run := .run }) hframe⟩
    rw [hstep, State.pollKeys_of_cons (s := s.taken) hkeys, htake]

/-- Settles O27: key k is the skip condition of SKP and its negation that of SKNP, and a skip instruction does nothing
but skip on its condition. -/
theorem keySkipsTestTheKey : Obligations.KeySkipsTestTheKey := by
  intro x k s hk
  obtain rfl : keyIndex (s.reg x) = k := keyIndex_eq_iff.mpr hk
  refine ⟨decode_encode (i := .skp x) rfl, decode_encode (i := .sknp x) rfl, fun i skips hi => ?_⟩
  have hcond : skipCondition i s = some skips := by
    obtain ⟨rfl, rfl⟩ | ⟨rfl, rfl⟩ := hi <;> rfl
  exact ⟨_, exec_of_skipCondition hcond, State.skipIf_pc_toNat s skips, rfl, rfl, fun _ => rfl⟩

/-- Settles O28: the instruction is one write of V[X] and the end. -/
theorem ldVxDtReadsTheTimer : Obligations.LdVxDtReadsTheTimer := by
  intro x s
  exact ⟨decode_encode (i := .ldVxDt x) rfl, _, rfl, s.reg_setReg_same x s.dt,
    fun z hz => s.reg_setReg_other s.dt hz, State.finish_pc_toNat _ 2, rfl, rfl, fun _ => rfl⟩

/-- Settles O29: each instruction is one write of its timer and the end, and sound_active is a test of ST. -/
theorem timerWritesRaiseNoEvent : Obligations.TimerWritesRaiseNoEvent := by
  intro x s
  refine ⟨decode_encode (i := .ldDt x) rfl, decode_encode (i := .ldSt x) rfl, ?_, ?_⟩
  · exact ⟨_, rfl, rfl, State.finish_pc_toNat _ 2, rfl, rfl, fun _ => rfl⟩
  · exact ⟨_, rfl, rfl, bne_iff_ne, State.finish_pc_toNat _ 2, rfl, rfl, fun _ => rfl⟩

end Sys2Proof.Machine
end

section
/-! Faults, timer ticks and resume (60_exceptions.md R211 to R224). Which core fault a step raises is said once, as a
function of the state before it: the step of a running core is the raising of that fault at the fetched word, and with
none it neither faults nor halts. -/

namespace Sys2Proof.Machine

/-! The fault that an instruction raises -/

/-- The core fault that i raises in s, none if it raises none (R211). -/
def instrFault (i : Instr) (s : State) : Option Fault :=
  match i with
  | .ret => if s.stack = [] then some .stackUnderflow else none
  | .call _ => if s.stackFull then some .stackOverflow else none
  | .drw _ y n => if s.rowOutOfRange (s.reg y).toNat n.toNat then some .drawRowOutOfRange else none
  | _ => none

theorem instrFault_ne_unknownOpcode (i : Instr) (s : State) : instrFault i s ≠ some .unknownOpcode := by
  unfold instrFault
  split <;> simp

theorem instrFault_eq_stackOverflow_iff {i : Instr} {s : State} :
    instrFault i s = some .stackOverflow ↔ (∃ nnn, i = .call nnn) ∧ s.params.stackLimit = some s.stack.length := by
  rw [← s.stackFull_iff]
  unfold instrFault
  split <;> simp_all

theorem instrFault_eq_stackUnderflow_iff {i : Instr} {s : State} :
    instrFault i s = some .stackUnderflow ↔ i = .ret ∧ s.stack = [] := by
  unfold instrFault
  split <;> simp_all

theorem instrFault_eq_drawRowOutOfRange_iff {i : Instr} {s : State} :
    instrFault i s = some .drawRowOutOfRange ↔
      ∃ x y n, i = .drw x y n ∧ s.drawsPastLastRow (s.reg y).toNat n.toNat := by
  simp only [← s.rowOutOfRange_iff]
  unfold instrFault
  split <;> simp_all

/-- An instruction that faults does so at its own word and does nothing else (R212). -/
theorem exec_of_instrFault {i : Instr} {s : State} {c : Fault} (h : instrFault i s = some c) :
    exec i s = .next (s.raiseFault c (encode i)) := by
  cases c
  case unknownOpcode => exact absurd h (instrFault_ne_unknownOpcode i s)
  case stackOverflow =>
    obtain ⟨⟨nnn, rfl⟩, hfull⟩ := instrFault_eq_stackOverflow_iff.mp h
    exact exec_call_of_full hfull nnn
  case stackUnderflow =>
    obtain ⟨rfl, hnil⟩ := instrFault_eq_stackUnderflow_iff.mp h
    exact exec_ret_of_nil hnil
  case drawRowOutOfRange =>
    obtain ⟨x, y, n, rfl, hpast⟩ := instrFault_eq_drawRowOutOfRange_iff.mp h
    exact exec_drw_of_past hpast

/-- An instruction reports no fault but the one it raises (R211). -/
theorem instrFault_of_stepResult {i : Instr} {s t : State} {c : Fault} (h : exec i s = .next t)
    (hc : t.stepResult = some (.fault c)) : instrFault i s = some c := by
  cases i
  case ret =>
    rw [exec, execRet] at h
    split at h <;> cases h <;> cases hc
    next hnil => exact if_pos hnil
  case call nnn =>
    rw [exec, execCall] at h
    split at h <;> cases h <;> cases hc
    next hfull => exact if_pos hfull
  case drw x y n =>
    rw [exec, execDrw] at h
    split at h <;> cases h <;> cases hc
    next hpast => exact if_pos hpast
  case ldVxK x =>
    rw [exec, execLdVxK] at h
    split at h <;> cases h
    · cases hc
    · next k rest _ =>
      obtain ⟨d, b, -, htake⟩ := s.takeKey_eq_finish x k rest
      rw [htake] at hc
      cases hc
  all_goals (cases h; cases hc)

/-- An instruction that raises no fault reports none and halts nothing. -/
theorem exec_of_no_instrFault {i : Instr} {s t : State} (hnone : instrFault i s = none) (hrun : s.run = .run)
    (h : exec i s = .next t) : (∀ c, t.stepResult ≠ some (.fault c)) ∧ ∀ c w, t.run ≠ .halted c w := by
  refine ⟨fun c hc => (nomatch hnone.symm.trans (instrFault_of_stepResult h hc)), fun c w hhalted => ?_⟩
  obtain ⟨d, rfl⟩ | ⟨x, -, rfl⟩ | ⟨u, a, rfl, hu⟩ := exec_kinds i s t h
  · cases hnone.symm.trans (instrFault_of_stepResult h rfl)
  · cases hhalted
  · rw [State.finishAt_run, hu] at hhalted
    cases hrun.symm.trans hhalted

/-! The fault that a step raises -/

/-- The core fault that the step of a core in RUN raises, none if it raises none (R211). -/
def State.stepFault (s : State) : Option Fault :=
  match decode s.fetchWord with
  | none => some .unknownOpcode
  | some i => instrFault i s

theorem State.stepFault_of_unknown {s : State} (h : decode s.fetchWord = none) :
    s.stepFault = some .unknownOpcode := by
  rw [State.stepFault, h]

theorem State.stepFault_of_decode {s : State} {i : Instr} (h : decode s.fetchWord = some i) :
    s.stepFault = instrFault i s := by
  rw [State.stepFault, h]

/-- The step of a core in RUN raises its fault at the fetched word, or else neither faults nor halts (R212). -/
theorem instructionStep_fault_cases {s t : State} (hrun : s.run = .run) (h : instructionStep s = .next t) :
    (∃ c, s.stepFault = some c ∧ t = s.raiseFault c s.fetchWord) ∨
    s.stepFault = none ∧ (∀ c, t.stepResult ≠ some (.fault c)) ∧ ∀ c w, t.run ≠ .halted c w := by
  cases hdecode : decode s.fetchWord with
  | none =>
    cases (instructionStep_of_unknown hrun hdecode).symm.trans h
    exact .inl ⟨_, State.stepFault_of_unknown hdecode, rfl⟩
  | some i =>
    rw [instructionStep_of_fetches ⟨hrun, hdecode⟩] at h
    rw [State.stepFault_of_decode hdecode]
    cases hfault : instrFault i s with
    | some c =>
      cases (exec_of_instrFault hfault).symm.trans h
      exact .inl ⟨c, rfl, by rw [(wf_encode_of_decode hdecode).2]⟩
    | none => exact .inr ⟨rfl, exec_of_no_instrFault hfault hrun h⟩

/-- A step of a core in RUN reports exactly its fault. -/
theorem instructionStep_stepResult_fault_iff {s t : State} {c : Fault} (hrun : s.run = .run)
    (h : instructionStep s = .next t) : t.stepResult = some (.fault c) ↔ s.stepFault = some c := by
  obtain ⟨d, hd, rfl⟩ | ⟨hnone, hresult, -⟩ := instructionStep_fault_cases hrun h
  · rw [hd, State.raiseFault_stepResult, Option.some_inj, StepResult.fault.injEq, Option.some_inj]
  · exact iff_of_false (hresult c) (by rw [hnone]; nofun)

/-- UnknownOpcode is the fault of the fetch alone (40_control_flow.md R100). -/
theorem State.stepFault_eq_unknownOpcode_iff {s : State} :
    s.stepFault = some .unknownOpcode ↔ decode s.fetchWord = none := by
  cases hdecode : decode s.fetchWord with
  | none => simp [State.stepFault_of_unknown hdecode]
  | some i => simp [State.stepFault_of_decode hdecode, instrFault_ne_unknownOpcode]

/-- Every other fault is that of the fetched instruction. -/
theorem State.stepFault_eq_iff {s : State} {c : Fault} (hc : c ≠ .unknownOpcode) :
    s.stepFault = some c ↔ ∃ i, decode s.fetchWord = some i ∧ instrFault i s = some c := by
  cases hdecode : decode s.fetchWord with
  | none => simp [State.stepFault_of_unknown hdecode, hc.symm]
  | some i => simp [State.stepFault_of_decode hdecode]

/-! Timer ticks -/

theorem add_expiries_of_eq_one {b : Byte} (e : Nat) (h : b.toNat = 1) : e + expiries b = e + 1 := by
  rw [expiries_eq, if_pos h]

theorem add_expiries_of_ne_one {b : Byte} (e : Nat) (h : b.toNat ≠ 1) : e + expiries b = e := by
  rw [expiries_eq, if_neg h, Nat.add_zero]

/-- DT and ST alike: a counter that each tick takes down saturates at 0, and its expiry is counted once, by the tick that
takes it there (R224). -/
theorem timer_after_ticks {timer : Nat → Byte} {events : Nat → Nat} (htimer : ∀ k, timer (k + 1) = tickDown (timer k))
    (hevents : ∀ k, events (k + 1) = events k + expiries (timer k)) (n : Nat) :
    (timer n).toNat = (timer 0).toNat - n ∧
      events n = events 0 + if 0 < (timer 0).toNat ∧ (timer 0).toNat ≤ n then 1 else 0 := by
  induction n with
  | zero => exact ⟨rfl, by rw [if_neg (by omega)]; rfl⟩
  | succ n ih =>
    obtain ⟨htimerN, heventsN⟩ := ih
    refine ⟨by rw [htimer, tickDown_toNat, htimerN, Nat.sub_sub], ?_⟩
    rw [hevents, expiries_eq, htimerN, heventsN]
    split_ifs <;> omega

theorem State.iterate_tickTimers_succ (s : State) (n : Nat) :
    State.tickTimers^[n + 1] s = (State.tickTimers^[n] s).tickTimers :=
  Function.iterate_succ_apply' State.tickTimers n s

/-- Any number of ticks touch the timers and their events only. -/
theorem State.iterate_tickTimers_frame (s : State) (n : Nat) :
    State.tickTimers^[n] s =
      { s with dt := (State.tickTimers^[n] s).dt, st := (State.tickTimers^[n] s).st,
               dtExpired := (State.tickTimers^[n] s).dtExpired, stExpired := (State.tickTimers^[n] s).stExpired } := by
  induction n with
  | zero => rfl
  | succ n ih =>
    rw [State.iterate_tickTimers_succ]
    generalize State.tickTimers^[n] s = u at ih
    rw [ih]
    rfl

/-- After the first reset a tick is performed in every run state (R222). -/
theorem step_of_tick {s : State} (hinit : s.initialised = true) (hop : s.nextOp = .tick) :
    step s = .next s.taken.tickTimers := by
  rw [step_eq_portStep, hop]
  exact afterReset_of_initialised (s := s.taken) hinit _

/-! Halted cores -/

theorem step_of_halted {s : State} {c : Fault} {w : Word} (hinit : s.initialised = true) (hop : s.nextOp = .step)
    (hrun : s.run = .halted c w) : step s = .next s.taken := by
  rw [step_of_nextOp_step hinit hop]
  simp only [instructionStep, hrun]

theorem step_of_resume {s : State} {mode : ResumeMode} (hinit : s.initialised = true) (hop : s.nextOp = .resume mode) :
    step s = .next (s.taken.resume mode) := by
  rw [step_eq_portStep, hop]
  exact afterReset_of_initialised (s := s.taken) hinit _

theorem State.resume_retry_of_halted {s : State} {c : Fault} {w : Word} (h : s.run = .halted c w) :
    s.resume .retry = { s with run := .run } := by
  simp only [State.resume, h]

theorem State.resume_skip_of_halted {s : State} {c : Fault} {w : Word} (h : s.run = .halted c w) :
    s.resume .skip = { s.setPc (s.pc.toNat + 2) with run := .run } := by
  simp only [State.resume, h]

theorem State.resume_of_not_halted {s : State} (h : ¬∃ c w, s.run = .halted c w) (mode : ResumeMode) :
    s.resume mode = s := by
  unfold State.resume
  split
  · next c w e => exact absurd ⟨c, w, e⟩ h
  · rfl
  · rfl

/-! The statements -/

/-- Settles O33: both timers follow the one law of a counter under ticks. -/
theorem ticksSaturateAtZero : Obligations.TicksSaturateAtZero := by
  rintro n s _ rfl
  have hsucc := s.iterate_tickTimers_succ
  obtain ⟨hdt, hdtExpired⟩ := timer_after_ticks (timer := fun k => (State.tickTimers^[k] s).dt)
    (events := fun k => (State.tickTimers^[k] s).dtExpired) (fun k => congrArg State.dt (hsucc k))
    (fun k => congrArg State.dtExpired (hsucc k)) n
  obtain ⟨hst, hstExpired⟩ := timer_after_ticks (timer := fun k => (State.tickTimers^[k] s).st)
    (events := fun k => (State.tickTimers^[k] s).stExpired) (fun k => congrArg State.st (hsucc k))
    (fun k => congrArg State.stExpired (hsucc k)) n
  exact ⟨hdt, hst, hdtExpired, hstExpired, s.iterate_tickTimers_frame n⟩

/-- Settles O35: a step of a running core raises a fault at the fetched word, or else neither faults nor halts. -/
theorem faultsArePrecise : Obligations.FaultsArePrecise := by
  intro s t c hinit hop hrun hstep
  rw [step_of_nextOp_step hinit hop] at hstep
  obtain ⟨d, -, rfl⟩ | ⟨-, hresult, hhalted⟩ := instructionStep_fault_cases (s := s.taken) hrun hstep
  · refine ⟨⟨fun h => ?_, fun ⟨w, h⟩ => ?_⟩, fun h => ?_⟩ <;> cases h
    · exact ⟨_, rfl⟩
    · rfl
    · rfl
  · exact ⟨iff_of_false (hresult c) fun ⟨w, h⟩ => hhalted c w h, fun h => absurd h (hresult c)⟩

/-- Settles O36: the fault reported is the fault of the step, which is one function of the state before it. -/
theorem faultsHaveTheirCauses : Obligations.FaultsHaveTheirCauses := by
  intro s t hinit hop hrun hstep
  rw [step_of_nextOp_step hinit hop] at hstep
  have hreport : ∀ c, t.stepResult = some (.fault c) ↔ s.stepFault = some c := fun c =>
    instructionStep_stepResult_fault_iff (s := s.taken) hrun hstep
  refine ⟨?_, ?_, ?_, ?_⟩ <;> rw [hreport]
  · exact State.stepFault_eq_unknownOpcode_iff
  · simp only [State.stepFault_eq_iff (c := .stackOverflow) nofun, instrFault_eq_stackOverflow_iff]
    exact ⟨fun ⟨_, hdecode, ⟨nnn, hi⟩, hfull⟩ => ⟨⟨nnn, hi ▸ hdecode⟩, hfull⟩,
      fun ⟨⟨nnn, hdecode⟩, hfull⟩ => ⟨_, hdecode, ⟨nnn, rfl⟩, hfull⟩⟩
  · simp only [State.stepFault_eq_iff (c := .stackUnderflow) nofun, instrFault_eq_stackUnderflow_iff]
    exact ⟨fun ⟨_, hdecode, hi, hnil⟩ => ⟨hi ▸ hdecode, hnil⟩, fun ⟨hdecode, hnil⟩ => ⟨_, hdecode, rfl, hnil⟩⟩
  · simp only [State.stepFault_eq_iff (c := .drawRowOutOfRange) nofun, instrFault_eq_drawRowOutOfRange_iff]
    exact ⟨fun ⟨_, hdecode, x, y, n, hi, hpast⟩ => ⟨x, y, n, hi ▸ hdecode, hpast⟩,
      fun ⟨x, y, n, hdecode, hpast⟩ => ⟨_, hdecode, x, y, n, rfl, hpast⟩⟩

/-- Settles O48: every meaning and every transaction is total, and none undoes the first reset. -/
theorem resetMachineNeverStops : Obligations.ResetMachineNeverStops := by
  refine ⟨exec_total, fun s hinit => ?_⟩
  rw [step_eq_portStep]
  exact portStep_total s.nextOp (s := s.taken) hinit

/-- Settles O32: a tick takes each timer down by one and counts its expiry where it was 1. -/
theorem tickDecrementsTheTimers : Obligations.TickDecrementsTheTimers := by
  intro s hinit hop
  exact ⟨_, step_of_tick hinit hop, tickDown_toNat s.dt, tickDown_toNat s.st, add_expiries_of_eq_one s.dtExpired,
    add_expiries_of_ne_one s.dtExpired, add_expiries_of_eq_one s.stExpired, add_expiries_of_ne_one s.stExpired,
    bne_iff_ne, rfl⟩

/-- Settles O34: FX15 is one write of DT and the end, and a tick leaves V[X]. -/
theorem tickAndTimerWriteAreSerialised : Obligations.TickAndTimerWriteAreSerialised :=
  fun x s => ⟨⟨_, rfl, tickDown_toNat (s.reg x)⟩, ⟨_, rfl, rfl⟩⟩

/-- Settles O37: the step of a halted core answers the state it is given. -/
theorem haltedCoreStaysAsItIs : Obligations.HaltedCoreStaysAsItIs :=
  fun _ _ _ hinit hop hrun => step_of_halted hinit hop hrun

/-- Settles O38, by whether the core is halted and then by the mode. -/
theorem resumeLeavesHalted : Obligations.ResumeLeavesHalted := by
  intro s mode hinit hop
  rw [step_of_resume hinit hop]
  refine ⟨fun ⟨c, w, hrun⟩ => ⟨_, rfl, ?_⟩, fun hnot => ?_⟩
  · cases mode
    case retry =>
      rw [State.resume_retry_of_halted (s := s.taken) hrun]
      exact ⟨rfl, fun _ => rfl, nofun, rfl⟩
    case skip =>
      rw [State.resume_skip_of_halted (s := s.taken) hrun]
      exact ⟨rfl, nofun, fun _ => State.setPc_pc_toNat s _, rfl⟩
  · rw [State.resume_of_not_halted (s := s.taken) hnot]

end Sys2Proof.Machine
end

section
/-! Reset, load and the time before the first reset (70_reset_and_hazards.md R250 to R253). -/

namespace Sys2Proof.Machine

/-! Reset -/

/-- A reset is performed in every state, before the first one too (R250, R252). -/
theorem step_of_reset {s : State} (hop : s.nextOp = .reset) : step s = .next s.taken.hostReset := by
  rw [step_eq_portStep, hop, portStep]

@[simp] theorem State.hostReset_reg (s : State) (z : RegIdx) : s.hostReset.reg z = 0#8 := Vector.getElem_replicate z.isLt

/-- Reset lists no cell, so every cell reads as unlisted. -/
theorem State.hostReset_memRead (s : State) {a : Nat} (h : a < 4096) :
    s.hostReset.memRead a = Memory.unlisted s.params.fontRom a := by
  rw [State.memRead, cellOf_eq_self h]
  rfl

/-- A framebuffer of false pixels reads false everywhere, also outside the geometry. -/
@[simp] theorem State.hostReset_pix (s : State) (c r : Nat) : s.hostReset.pix c r = false :=
  List.getElem?_getD_replicate_default_eq ..

theorem Memory.unlisted_of_lt (rom : FontRom) {a : Nat} (h : a < 80) : Memory.unlisted rom a = rom[a] := dif_pos h

theorem Memory.unlisted_of_le (rom : FontRom) {a : Nat} (h : 80 ≤ a) : Memory.unlisted rom a = 0#8 :=
  dif_neg (Nat.not_lt.mpr h)

/-! Load -/

theorem step_of_load {s : State} {bytes : List Byte} (hinit : s.initialised = true) (hop : s.nextOp = .load bytes) :
    step s = .next (s.taken.hostLoad bytes) := by
  rw [step_eq_portStep, hop]
  exact afterReset_of_initialised (s := s.taken) hinit _

/-- An image that fits is a run of stores from 0x200 on (R253). -/
theorem State.hostLoad_of_fits {bytes : List Byte} (h : 0x200 + bytes.length ≤ 0x1000) (s : State) :
    s.hostLoad bytes = { s.memWrites 0x200 bytes with loadResult := some .ok } :=
  if_neg (Nat.not_lt.mpr h)

/-- An image that does not fit is refused whole (R253). -/
theorem State.hostLoad_of_too_large {bytes : List Byte} (h : 0x200 + bytes.length > 0x1000) (s : State) :
    s.hostLoad bytes = { s with loadResult := some .imageTooLarge } :=
  if_pos h

/-- The cells of an image that fits are consecutive and do not wrap, so a cell outside their range is none of them. -/
theorem cellOf_ne_image_cell {a k n : Nat} (hfits : 0x200 + n ≤ 0x1000) (ha : cellOf a < 0x200 ∨ 0x200 + n ≤ cellOf a)
    (hk : k < n) : cellOf a ≠ cellOf (0x200 + k) := by
  rw [cellOf_eq_self (a := 0x200 + k) (by omega)]
  omega

/-! Before the first reset -/

theorem afterReset_of_not_initialised {s : State} (h : s.initialised = false) (r : Result) :
    afterReset s r = .refused .beforeFirstReset := by
  simp [afterReset, h]

/-- Before the first reset every transaction but the reset and a change of the key vector is refused (R252; log entry
8). -/
theorem portStep_of_not_initialised {op : PortOp} {s : State} (h : s.initialised = false) (hreset : op ≠ .reset)
    (hkeys : ∀ keys, op ≠ .setKeys keys) : portStep op s = .refused .beforeFirstReset := by
  cases op
  case reset => exact absurd rfl hreset
  case setKeys keys => exact absurd rfl (hkeys keys)
  all_goals exact afterReset_of_not_initialised h _

/-! The statements -/

/-- Settles O40: an image that fits is stored byte by byte in cells that do not wrap, and one that does not is not
stored. -/
theorem loadIsAllOrNothing : Obligations.LoadIsAllOrNothing := by
  intro s bytes hinit hop
  rw [step_of_load hinit hop]
  refine ⟨fun hfits => ?_, fun hlarge => by rw [State.hostLoad_of_too_large hlarge]⟩
  rw [State.hostLoad_of_fits hfits]
  refine ⟨_, rfl, rfl, s.taken.memRead_memWrites 0x200 bytes (by omega), fun a ha => ?_, ?_⟩
  · exact s.taken.memRead_memWrites_other 0x200 bytes a fun k hk => cellOf_ne_image_cell hfits ha hk
  · rw [State.memWrites_frame]

/-- Settles O39: the reset state lists no cell of memory, and every other field has its value by definition. -/
theorem resetGivesTheResetValues : Obligations.ResetGivesTheResetValues := by
  intro s hop
  have hfont (a : Nat) (h : a < 80) : s.taken.hostReset.memRead a = s.params.fontRom[a] :=
    (State.hostReset_memRead _ (by omega)).trans (Memory.unlisted_of_lt _ h)
  have hzero (a : Nat) (h : 80 ≤ a) (ha : a < 4096) : s.taken.hostReset.memRead a = 0#8 :=
    (State.hostReset_memRead _ ha).trans (Memory.unlisted_of_le _ h)
  exact ⟨_, step_of_reset hop, State.hostReset_reg _, rfl, rfl, rfl, rfl, rfl, hfont, hzero, State.hostReset_pix _,
    List.length_replicate, rfl, rfl, rfl, rfl, rfl, rfl, rfl, rfl, rfl⟩

/-- Settles O41: each of the four transactions is neither a reset nor a change of the key vector. -/
theorem nothingRunsBeforeTheFirstReset : Obligations.NothingRunsBeforeTheFirstReset := by
  intro s hinit hnext
  rw [step_eq_portStep]
  obtain hop | hop | ⟨bytes, hop⟩ | ⟨mode, hop⟩ := hnext <;> rw [hop] <;>
    exact portStep_of_not_initialised (s := s.taken) hinit nofun nofun

end Sys2Proof.Machine
end
